-- ==== Sys2Proof/Word.lean ====
section
/-! DEFINITION. The word types of the ports (spec/30_encoding.md R60 to R63) and the fixed vocabularies of the block:
families, keys, shapes, errors, checksum paths. -/

namespace Sys2Proof

/-- A byte of the ROM or of the wire (R7). -/
abbrev Byte := BitVec 8

/-- Format E, the encoder's request word (R60). -/
abbrev EWord := BitVec 21

/-- Format A, the adder port's request word (R61). -/
abbrev AWord := BitVec 32

/-- Format R, the encoder's response word (R62). -/
abbrev RWord := BitVec 37

/-- Format S, the adder port's response word (R63). -/
abbrev SWord := BitVec 17

/-- The six catalog families (R25). -/
inductive Family where
  | pwmFreq | gateLogic | maxPwm | laseOnPowerUp | mode | lase
deriving DecidableEq, Repr

/-- The 16 legal (family, key) pairs of the catalog (R25, R40). -/
inductive Key where
  | pwmFreq5 | pwmFreq10 | pwmFreq20
  | gateLogicUp | gateLogicDown
  | maxPwm95 | maxPwm99
  | laseOnPowerUpFalse | laseOnPowerUpTrue
  | modeManual | modeAnc | modeAnv | modeManClosed | modeAnvClosed
  | laseFalse | laseTrue
deriving DecidableEq, Repr

/-- The shape of a request: which arm of the encoder's dispatch its command code takes (R13, R64). -/
inductive Shape where
  | catalog (f : Family)
  | percent
  | status
  | bad
deriving DecidableEq, Repr

/-- The two errors of the block (R160 to R163). An error is a RESPONSE, not a stop of the machine. -/
inductive ErrorKind where
  | unrecognizedCommand
  | invalidData
deriving DecidableEq, Repr

/-- The three checksum paths (R72). -/
inductive CsPath where
  | csNone
  | csCmd
  | csAdd
deriving DecidableEq, Repr

/-- What a port can be presented with: a word of format E or a word of format A (R60, R61). -/
inductive PortWord where
  | e (w : EWord)
  | a (w : AWord)
deriving DecidableEq, Repr

end Sys2Proof
end

