-- ==== Sys2Proof/Syntax.lean ====
section
/-! DEFINITION. The instructions: one constructor per row of spec/opcode_table.json (spec/30_encoding.md R74). -/

namespace Sys2Proof

/-- The operations of the block. `cs` is `checksum_enabled` (R60). The `data` of `percent` is the whole UQ8.8 field, of
which a row's word has bit 15 clear (R74, `Instr.wf`). The `cs` and `data` of `statusRequest` are present in the word and
ignored (R67). -/
inductive Instr where
  | pwmFreq5 (cs : Bool)
  | pwmFreq10 (cs : Bool)
  | pwmFreq20 (cs : Bool)
  | gateLogicUp (cs : Bool)
  | gateLogicDown (cs : Bool)
  | maxPwm95 (cs : Bool)
  | maxPwm99 (cs : Bool)
  | laseOnPowerUpFalse (cs : Bool)
  | laseOnPowerUpTrue (cs : Bool)
  | modeManual (cs : Bool)
  | modeAnc (cs : Bool)
  | modeAnv (cs : Bool)
  | modeManClosed (cs : Bool)
  | modeAnvClosed (cs : Bool)
  | laseFalse (cs : Bool)
  | laseTrue (cs : Bool)
  | percent (cs : Bool) (data : BitVec 16)
  | statusRequest (cs : Bool) (data : BitVec 16)
  | addnc (op0 op1 : BitVec 16)
deriving DecidableEq, Repr

/-- The mnemonic of the instruction's row in spec/opcode_table.json (R74, R80). -/
def Instr.mnemonic : Instr → String
  | .pwmFreq5 _ => "PWM_FREQ.5"
  | .pwmFreq10 _ => "PWM_FREQ.10"
  | .pwmFreq20 _ => "PWM_FREQ.20"
  | .gateLogicUp _ => "GATE_LOGIC.up"
  | .gateLogicDown _ => "GATE_LOGIC.down"
  | .maxPwm95 _ => "MAX_PWM.95"
  | .maxPwm99 _ => "MAX_PWM.99"
  | .laseOnPowerUpFalse _ => "LASE_ON_POWER_UP.false"
  | .laseOnPowerUpTrue _ => "LASE_ON_POWER_UP.true"
  | .modeManual _ => "MODE.manual"
  | .modeAnc _ => "MODE.anc"
  | .modeAnv _ => "MODE.anv"
  | .modeManClosed _ => "MODE.man_closed"
  | .modeAnvClosed _ => "MODE.anv_closed"
  | .laseFalse _ => "LASE.false"
  | .laseTrue _ => "LASE.true"
  | .percent _ _ => "PERCENT"
  | .statusRequest _ _ => "STATUS_REQUEST"
  | .addnc _ _ => "ADDNC"

/-- Which port presents the instruction: the A port for ADDNC, the E port for every other (R74). -/
def Instr.onEPort : Instr → Bool
  | .pwmFreq5 _ | .pwmFreq10 _ | .pwmFreq20 _ => true
  | .gateLogicUp _ | .gateLogicDown _ => true
  | .maxPwm95 _ | .maxPwm99 _ => true
  | .laseOnPowerUpFalse _ | .laseOnPowerUpTrue _ => true
  | .modeManual _ | .modeAnc _ | .modeAnv _ | .modeManClosed _ | .modeAnvClosed _ => true
  | .laseFalse _ | .laseTrue _ => true
  | .percent _ _ => true
  | .statusRequest _ _ => true
  | .addnc _ _ => false

end Sys2Proof
end

