-- ==== Sys2Proof/WellFormed.lean ====
section
/-! DEFINITION. Which instructions have a word: the one operand check of spec/30_encoding.md R74. -/

namespace Sys2Proof

/-- The row PERCENT is selected by `cmd = 6` and `data[15] = 0` (R74); every operand of every other row is legal (R61,
R67, R78). -/
def Instr.wf : Instr → Bool
  | .pwmFreq5 _ | .pwmFreq10 _ | .pwmFreq20 _ => true
  | .gateLogicUp _ | .gateLogicDown _ => true
  | .maxPwm95 _ | .maxPwm99 _ => true
  | .laseOnPowerUpFalse _ | .laseOnPowerUpTrue _ => true
  | .modeManual _ | .modeAnc _ | .modeAnv _ | .modeManClosed _ | .modeAnvClosed _ => true
  | .laseFalse _ | .laseTrue _ => true
  | .percent _ data => !data.getLsbD 15
  | .statusRequest _ _ => true
  | .addnc _ _ => true

end Sys2Proof
end

