-- ==== Sys2Proof/Decode.lean ====
section
/-! DEFINITION. The decoder of the two ports, total and rejecting by name (spec/30_encoding.md R64 to R68, R74 to R77),
and after it the encoder, written from the same tables. -/

namespace Sys2Proof

/-- `e_cmd`, bits 20:17 of an E word (R60). -/
def wordCmd (w : EWord) : BitVec 4 := w.extractLsb' 17 4

/-- `e_cs`, bit 16 of an E word (R60). -/
def wordCs (w : EWord) : Bool := w.getLsbD 16

/-- `e_data`, bits 15:0 of an E word (R60). -/
def wordData (w : EWord) : BitVec 16 := w.extractLsb' 0 16

/-- `E = {e_cmd, e_cs, e_data}` (R27, R60). -/
def eWordOf (cmd : BitVec 4) (cs : Bool) (data : BitVec 16) : EWord := cmd ++ BitVec.ofBool cs ++ data

/-- `op0`, bits 31:16 of an A word (R61). -/
def wordOp0 (w : AWord) : BitVec 16 := w.extractLsb' 16 16

/-- `op1`, bits 15:0 of an A word (R61). -/
def wordOp1 (w : AWord) : BitVec 16 := w.extractLsb' 0 16

/-- `A = {a_op0, a_op1}` (R61). -/
def aWordOf (op0 op1 : BitVec 16) : AWord := op0 ++ op1

/-- The shape a command code selects (R64). -/
def shapeOf (cmd : BitVec 4) : Shape :=
  match cmd.toNat with
  | 0 => .catalog .pwmFreq
  | 1 => .catalog .gateLogic
  | 2 => .catalog .maxPwm
  | 3 => .catalog .laseOnPowerUp
  | 4 => .catalog .mode
  | 5 => .catalog .lase
  | 6 => .percent
  | 7 => .status
  | _ => .bad

/-- The command code of a family (R64). -/
def Family.cmd : Family → BitVec 4
  | .pwmFreq => 0
  | .gateLogic => 1
  | .maxPwm => 2
  | .laseOnPowerUp => 3
  | .mode => 4
  | .lase => 5

/-- The key that a data code selects in its family, all 16 bits compared; none where the code is illegal (R65). -/
def Family.keyOf (f : Family) (data : BitVec 16) : Option Key :=
  match f with
  | .pwmFreq =>
    if data = 5 then some .pwmFreq5 else if data = 10 then some .pwmFreq10
    else if data = 20 then some .pwmFreq20 else none
  | .gateLogic =>
    if data = 0 then some .gateLogicUp else if data = 1 then some .gateLogicDown else none
  | .maxPwm =>
    if data = 95 then some .maxPwm95 else if data = 99 then some .maxPwm99 else none
  | .laseOnPowerUp =>
    if data = 0 then some .laseOnPowerUpFalse else if data = 1 then some .laseOnPowerUpTrue else none
  | .mode =>
    if data = 0 then some .modeManual else if data = 1 then some .modeAnc
    else if data = 2 then some .modeAnv else if data = 3 then some .modeManClosed
    else if data = 4 then some .modeAnvClosed else none
  | .lase =>
    if data = 0 then some .laseFalse else if data = 1 then some .laseTrue else none

/-- The family of a catalog pair (R25). -/
def Key.family : Key → Family
  | .pwmFreq5 | .pwmFreq10 | .pwmFreq20 => .pwmFreq
  | .gateLogicUp | .gateLogicDown => .gateLogic
  | .maxPwm95 | .maxPwm99 => .maxPwm
  | .laseOnPowerUpFalse | .laseOnPowerUpTrue => .laseOnPowerUp
  | .modeManual | .modeAnc | .modeAnv | .modeManClosed | .modeAnvClosed => .mode
  | .laseFalse | .laseTrue => .lase

/-- The data code of a key (R65; the column "data code" of R40). -/
def Key.code : Key → BitVec 16
  | .pwmFreq5 => 5
  | .pwmFreq10 => 10
  | .pwmFreq20 => 20
  | .gateLogicUp => 0
  | .gateLogicDown => 1
  | .maxPwm95 => 95
  | .maxPwm99 => 99
  | .laseOnPowerUpFalse => 0
  | .laseOnPowerUpTrue => 1
  | .modeManual => 0
  | .modeAnc => 1
  | .modeAnv => 2
  | .modeManClosed => 3
  | .modeAnvClosed => 4
  | .laseFalse => 0
  | .laseTrue => 1

/-- The catalog operation of a pair (R74). -/
def Key.instr (k : Key) (cs : Bool) : Instr :=
  match k with
  | .pwmFreq5 => .pwmFreq5 cs
  | .pwmFreq10 => .pwmFreq10 cs
  | .pwmFreq20 => .pwmFreq20 cs
  | .gateLogicUp => .gateLogicUp cs
  | .gateLogicDown => .gateLogicDown cs
  | .maxPwm95 => .maxPwm95 cs
  | .maxPwm99 => .maxPwm99 cs
  | .laseOnPowerUpFalse => .laseOnPowerUpFalse cs
  | .laseOnPowerUpTrue => .laseOnPowerUpTrue cs
  | .modeManual => .modeManual cs
  | .modeAnc => .modeAnc cs
  | .modeAnv => .modeAnv cs
  | .modeManClosed => .modeManClosed cs
  | .modeAnvClosed => .modeAnvClosed cs
  | .laseFalse => .laseFalse cs
  | .laseTrue => .laseTrue cs

/-- The decoder of the E port. The command is judged before the data (R68, R164); a word of no row is rejected by the
name of the error it raises (R74 to R76). -/
def decodeE (w : EWord) : Except ErrorKind Instr :=
  match shapeOf (wordCmd w) with
  | .catalog f =>
    match f.keyOf (wordData w) with
    | some k => .ok (k.instr (wordCs w))
    | none => .error .invalidData
  | .percent =>
    if (wordData w).getLsbD 15 then .error .invalidData else .ok (.percent (wordCs w) (wordData w))
  | .status => .ok (.statusRequest (wordCs w) (wordData w))
  | .bad => .error .unrecognizedCommand

/-- The decoder of the A port: every word is an ADDNC (R61, R106). -/
def decodeA (w : AWord) : Instr := .addnc (wordOp0 w) (wordOp1 w)

/-- The decoder of both ports (R77). -/
def decode : PortWord → Except ErrorKind Instr
  | .e w => decodeE w
  | .a w => .ok (decodeA w)

/-! ### The encoder -/

/-- The E word of a catalog operation (R74). -/
def Key.word (k : Key) (cs : Bool) : PortWord := .e (eWordOf k.family.cmd cs k.code)

/-- The word of an instruction on its port (R60, R61, R64, R65, R74). -/
def encode : Instr → PortWord
  | .pwmFreq5 cs => Key.word .pwmFreq5 cs
  | .pwmFreq10 cs => Key.word .pwmFreq10 cs
  | .pwmFreq20 cs => Key.word .pwmFreq20 cs
  | .gateLogicUp cs => Key.word .gateLogicUp cs
  | .gateLogicDown cs => Key.word .gateLogicDown cs
  | .maxPwm95 cs => Key.word .maxPwm95 cs
  | .maxPwm99 cs => Key.word .maxPwm99 cs
  | .laseOnPowerUpFalse cs => Key.word .laseOnPowerUpFalse cs
  | .laseOnPowerUpTrue cs => Key.word .laseOnPowerUpTrue cs
  | .modeManual cs => Key.word .modeManual cs
  | .modeAnc cs => Key.word .modeAnc cs
  | .modeAnv cs => Key.word .modeAnv cs
  | .modeManClosed cs => Key.word .modeManClosed cs
  | .modeAnvClosed cs => Key.word .modeAnvClosed cs
  | .laseFalse cs => Key.word .laseFalse cs
  | .laseTrue cs => Key.word .laseTrue cs
  | .percent cs data => .e (eWordOf 6 cs data)
  | .statusRequest cs data => .e (eWordOf 7 cs data)
  | .addnc op0 op1 => .a (aWordOf op0 op1)

/-! ### The opcode table -/

/-- A row of format E: a word `w` belongs to the row when `w AND mask = pattern` (R74). -/
structure OpcodeRow where
  mnemonic : String
  mask : EWord
  pattern : EWord
deriving DecidableEq, Repr

/-- Whether a word belongs to a row (R74). -/
def OpcodeRow.matches (r : OpcodeRow) (w : EWord) : Bool := w &&& r.mask == r.pattern

/-- The rows of the catalog operations, from spec/opcode_table.json. -/
def catalogRows : List OpcodeRow :=
  [⟨"PWM_FREQ.5", 0x1EFFFF, 0x000005⟩, ⟨"PWM_FREQ.10", 0x1EFFFF, 0x00000A⟩,
   ⟨"PWM_FREQ.20", 0x1EFFFF, 0x000014⟩, ⟨"GATE_LOGIC.up", 0x1EFFFF, 0x020000⟩,
   ⟨"GATE_LOGIC.down", 0x1EFFFF, 0x020001⟩, ⟨"MAX_PWM.95", 0x1EFFFF, 0x04005F⟩,
   ⟨"MAX_PWM.99", 0x1EFFFF, 0x040063⟩, ⟨"LASE_ON_POWER_UP.false", 0x1EFFFF, 0x060000⟩,
   ⟨"LASE_ON_POWER_UP.true", 0x1EFFFF, 0x060001⟩, ⟨"MODE.manual", 0x1EFFFF, 0x080000⟩,
   ⟨"MODE.anc", 0x1EFFFF, 0x080001⟩, ⟨"MODE.anv", 0x1EFFFF, 0x080002⟩,
   ⟨"MODE.man_closed", 0x1EFFFF, 0x080003⟩, ⟨"MODE.anv_closed", 0x1EFFFF, 0x080004⟩,
   ⟨"LASE.false", 0x1EFFFF, 0x0A0000⟩, ⟨"LASE.true", 0x1EFFFF, 0x0A0001⟩]

/-- The 18 rows of format E (R74); ADDNC, alone on the A port, fixes no bit. -/
def opcodeRows : List OpcodeRow :=
  catalogRows ++ [⟨"PERCENT", 0x1E8000, 0x0C0000⟩, ⟨"STATUS_REQUEST", 0x1E0000, 0x0E0000⟩]

/-! ### The table's numbering of words -/

/-- The port word that `nbits` bits `w` of a row stand for. A row of format E fixes bit 20, so its width in whole bytes
is 24 and bits above 20 must be 0 (R60); any other width up to 32 is format A, whose row fixes no bit (R61, R78). -/
def tablePortWord (nbits w : Nat) : Option PortWord :=
  if 21 ≤ nbits ∧ nbits ≤ 24 then
    if w < 2 ^ 21 then some (.e (BitVec.ofNat 21 w)) else none
  else if nbits ≤ 32 then
    if w < 2 ^ 32 then some (.a (BitVec.ofNat 32 w)) else none
  else none

/-- The instruction the decoder reads from an instruction of the table whose bits are `w`. -/
def decodeTableWord (nbits w : Nat) : Option Instr :=
  match tablePortWord nbits w with
  | some p => (decode p).toOption
  | none => none

end Sys2Proof
end

