-- ==== Sys2Proof/Config.lean ====
section
/-! DEFINITION. What is fixed when the block is built: the three constants (spec/10_state.md R24) and the open parameter
CAT (R25, R26). -/

namespace Sys2Proof

/-- START_BYTE (R24, R73). -/
def Config.startByte : Byte := 0x5B#8

/-- STATUS_REQUEST_BYTE (R24, R73). -/
def Config.statusRequestByte : Byte := 0x7E#8

/-- SET_PERCENT_BYTE (R24, R73). -/
def Config.setPercentByte : Byte := 0x7F#8

/-- The open parameter CAT (R25, R26; 92_eei_decisions.md D14): the byte a ROM location was built with, by the index of
R40. The spec gives no value, so this constant has no body: a claim about it holds for every catalog (log 1). -/
opaque Config.cat : Fin 16 → Byte

end Sys2Proof
end

