-- ==== Sys2Proof/Machine/Decimal.lean ====
section
/-! DEFINITION. The two arithmetic primitives of the block: the carry-less decimal sum `cla10` (spec/40_adder.md R90 to
R96) and the ones'-complement `not8` (spec/00_scope.md R10). -/

namespace Sys2Proof.Machine

/-- The count of decimal digits of `v`, given at least `v` units of fuel. -/
def len10Fuel : Nat → Nat → Nat
  | 0, _ => 0
  | fuel + 1, v => if v = 0 then 0 else 1 + len10Fuel fuel (v / 10)

/-- `len10(v)`: the least `n` with `v < 10^n` (R91). For 0 the spec fixes no digit count; the model takes the same
formula, 0, and no result depends on it (log 13). -/
def len10 (v : Nat) : Nat := len10Fuel v v

/-- `digit(v, p) = (v mod 10^p) div 10^(p-1)`, positions from 1 (R92). -/
def digit (v p : Nat) : Nat := v % 10 ^ p / 10 ^ (p - 1)

/-- The number of positions the adder visits, `L` (R91). -/
def maxLen10 (vs : List Nat) : Nat := (vs.map len10).foldr max 0

/-- `s_p`, over the inputs that have at least `p` digits (R93). -/
def posSum (vs : List Nat) (p : Nat) : Nat := ((vs.filter fun v => p ≤ len10 v).map fun v => digit v p).sum

/-- The sum of the reduced contributions of positions 1 to `n`: `r_p = s_p mod 10` (R94), by ordinary addition (R95). -/
def accumulate (vs : List Nat) : Nat → Nat
  | 0 => 0
  | n + 1 => accumulate vs n + posSum vs (n + 1) % 10 * 10 ^ n

/-- `cla10`, the carry-less decimal sum (R90, R96). Of no inputs it is 0 (R100, log 14). -/
def cla10 (vs : List Nat) : Nat := accumulate vs (maxLen10 vs)

/-- `not8(b) = 255 - (b mod 256)`, for any non-negative integer (R10). -/
def not8 (b : Nat) : Byte := BitVec.ofNat 8 (255 - b % 256)

end Sys2Proof.Machine
end

