-- ==== Sys2Proof/Machine/Operands.lean ====
section
/-! DEFINITION. The operands of a request: the ROM index of a catalog pair (spec/20_memory.md R40) and the quantities a
percent value is taken apart into (spec/30_encoding.md R66; the transient values of spec/10_state.md R31). -/

namespace Sys2Proof.Machine

/-- `idx(f,k)`, the ROM location of a pair (R40). -/
def romIndex : Key → Fin 16
  | .pwmFreq5 => 0
  | .pwmFreq10 => 1
  | .pwmFreq20 => 2
  | .gateLogicUp => 3
  | .gateLogicDown => 4
  | .maxPwm95 => 5
  | .maxPwm99 => 6
  | .laseOnPowerUpFalse => 7
  | .laseOnPowerUpTrue => 8
  | .modeManual => 9
  | .modeAnc => 10
  | .modeAnv => 11
  | .modeManClosed => 12
  | .modeAnvClosed => 13
  | .laseFalse => 14
  | .laseTrue => 15

/-- `twice = data[15:7]`, which is `trunc(2q)` (R66). -/
def percentTwice (data : BitVec 16) : BitVec 9 := data.extractLsb' 7 9

/-- `ip = data[15:8]`, the integer part of the percentage (R66, R136). -/
def percentIp (data : BitVec 16) : Byte := data.extractLsb' 8 8

/-- `fr = data[7:0]`, the fraction in 256ths (R66). -/
def percentFr (data : BitVec 16) : Byte := data.extractLsb' 0 8

/-- `data_byte = data[14:7]`, the power in half-percent units (R132). -/
def percentDataByte (data : BitVec 16) : Byte := data.extractLsb' 7 8

/-- `nc_sum = cla10([0x7F, ip])`, 10 bits (R31, R107, R135). -/
def percentNcSum (ip : Byte) : BitVec 10 := BitVec.ofNat 10 (cla10 [Config.setPercentByte.toNat, ip.toNat])

end Sys2Proof.Machine
end

