-- ==== Sys2Proof/Machine/Flags.lean ====
section
/-! DEFINITION. The block has no flags (spec/10_state.md R23). What stands in their place: the status codes of a response
(spec/60_exceptions.md R163) and the checksum path a request takes (spec/30_encoding.md R72). -/

namespace Sys2Proof.Machine

/-- `r_status` of a request that produced a byte sequence (R163). -/
def statusOk : BitVec 2 := 0

/-- `r_status` of a request that failed (R163). -/
def statusOf : ErrorKind → BitVec 2
  | .unrecognizedCommand => 1
  | .invalidData => 2

/-- The checksum path, by shape and `cs` alone; a request that fails for its command takes none (R72). -/
def csPath : Shape → Bool → Option CsPath
  | .catalog _, false => some .csNone
  | .catalog _, true => some .csCmd
  | .percent, false => some .csNone
  | .percent, true => some .csAdd
  | .status, _ => some .csNone
  | .bad, _ => none

/-- The bytes a path appends: none, the complement of the command byte alone (R111), or the complement of the carry-less
sum of the set-percent byte and `ip` (R135, R136). `ip` is read on the path CS_ADD only. -/
def checksumBytes (path : Option CsPath) (commandByte ip : Byte) : List Byte :=
  match path with
  | none => []
  | some .csNone => []
  | some .csCmd => [not8 commandByte.toNat]
  | some .csAdd => [not8 (percentNcSum ip).toNat]

end Sys2Proof.Machine
end

