-- ==== Sys2Proof/Machine/State.lean ====
section
/-! DEFINITION. The state: the wires of the two ports, the catalog ROM, and the host's two records (spec/10_state.md R20
to R35, spec/20_memory.md R40). -/

namespace Sys2Proof.Machine

/-- Memory as plain data: (address, byte) pairs, by rising address. The one address space is the catalog ROM (R40). What
an unlisted location holds is said by `Memory.read` (Machine/Ops.lean). -/
abbrev Memory := List Host.Cell

/-- What the host puts on the input wires for one evaluation: a strobe and a word for each port (R27, R29, R30). -/
structure Presentation where
  eValid : Bool
  e : EWord
  aValid : Bool
  a : AWord
deriving DecidableEq, Repr

/-- The state. The block itself keeps nothing between requests (R20): the output fields are the wires of the evaluation
just made, functions of the input fields and of the ROM. `pending` and `txlog` belong to the host (R22, R33; log 3). -/
structure State where
  eValid : Bool
  eCmd : BitVec 4
  eCs : Bool
  eData : BitVec 16
  aValid : Bool
  aOp0 : BitVec 16
  aOp1 : BitVec 16
  rValid : Bool
  rStatus : BitVec 2
  rLen : BitVec 3
  rB0 : Byte
  rB1 : Byte
  rB2 : Byte
  rB3 : Byte
  sValid : Bool
  sSum : SWord
  rom : Memory
  pending : List Presentation
  txlog : List Byte
deriving DecidableEq, Repr

/-- The block has no trap, hang or undefined result (R17): nothing stops the machine, so there is no fault. The two
errors of R160 are responses, that is next states. Safe: no constructor, so no run can end in one (log 8). -/
inductive Fault where
deriving DecidableEq, Repr

/-- Why the model gives an instruction no meaning. -/
inductive Refusal where
  /-- Raised by `exec`'s arm of an instruction that is not modelled yet; safe. No arm raises it: every instruction of the
  table has its meaning. -/
  | notModelled (mnemonic : String)
deriving DecidableEq, Repr

/-- The machine at power-up (R34): no request presented, every output 0, the ROM as built (nothing listed, so every
location holds the parameter CAT), TXLOG empty. The input wires are the host's (log 5). -/
def State.reset : State where
  eValid := false
  eCmd := 0
  eCs := false
  eData := 0
  aValid := false
  aOp0 := 0
  aOp1 := 0
  rValid := false
  rStatus := 0
  rLen := 0
  rB0 := 0
  rB1 := 0
  rB2 := 0
  rB3 := 0
  sValid := false
  sSum := 0
  rom := []
  pending := []
  txlog := []

end Sys2Proof.Machine
end

