-- ==== Sys2Proof/Machine/Ops.lean ====
section
/-! DEFINITION. The named operations over the ROM, the port wires and the host's records; among them the one way a request
fails, `State.raise`. -/

namespace Sys2Proof.Machine

/-! ### The catalog ROM -/

/-- The one memory read (R12, R40, R46): a byte of the 16 locations. A location that the state does not list holds what
the block was built with, the parameter CAT (R25, R34; log 1, log 2). No operation writes the ROM (R41, R48). -/
def Memory.read (m : Memory) (i : Fin 16) : Byte := (m.lookup i.val).getD (Config.cat i)

/-- The canonical form: addresses strictly rising, all of them of the 16 locations, and no entry equal to what an
unlisted location holds. -/
abbrev Memory.wf (m : Memory) : Prop :=
  m.Pairwise (fun c d => c.1 < d.1) ∧ ∀ c ∈ m, ∃ h : c.1 < 16, c.2 ≠ Config.cat ⟨c.1, h⟩

/-! ### The E port -/

/-- The request word on the input wires (R27). -/
def State.eWord (s : State) : EWord := eWordOf s.eCmd s.eCs s.eData

/-- The response word on the output wires, format R (R62). -/
def State.rWord (s : State) : RWord := s.rStatus ++ s.rLen ++ s.rB3 ++ s.rB2 ++ s.rB1 ++ s.rB0

/-- A request succeeds with a byte sequence: lane `i` carries element `i`, a lane beyond the length is 0 (R28, R43,
R62). -/
def State.respond (bytes : List Byte) (s : State) : State :=
  { s with
    rValid := true
    rStatus := statusOk
    rLen := BitVec.ofNat 3 bytes.length
    rB0 := bytes.getD 0 0
    rB1 := bytes.getD 1 0
    rB2 := bytes.getD 2 0
    rB3 := bytes.getD 3 0 }

/-- TAKING AN ERROR, the block's one exception: the response carries the code, length 0 and lanes 0; nothing is saved and
control goes nowhere (R62, R165, R166). There is no return: the next request is served like any other (R167). -/
def State.raise (e : ErrorKind) (s : State) : State :=
  { s with
    rValid := true
    rStatus := statusOf e
    rLen := 0
    rB0 := 0
    rB1 := 0
    rB2 := 0
    rB3 := 0 }

/-- The response to a request: a byte sequence or an error, never both (R51, R160). -/
def State.answer (r : Except ErrorKind (List Byte)) (s : State) : State :=
  match r with
  | .ok bytes => s.respond bytes
  | .error e => s.raise e

/-- No request on the E port: every response output is 0 (R30). -/
def State.idleE (s : State) : State :=
  { s with rValid := false, rStatus := 0, rLen := 0, rB0 := 0, rB1 := 0, rB2 := 0, rB3 := 0 }

/-- The response word of a result, format R, as the table of R62 lays it out. -/
def responseWord : Except ErrorKind (List Byte) → RWord
  | .ok bytes =>
    statusOk ++ BitVec.ofNat 3 bytes.length ++ bytes.getD 3 0 ++ bytes.getD 2 0 ++ bytes.getD 1 0 ++ bytes.getD 0 0
  | .error e => statusOf e ++ (0 : BitVec 35)

/-! ### The A port -/

/-- The request word on the input wires (R61). -/
def State.aWord (s : State) : AWord := aWordOf s.aOp0 s.aOp1

/-- The adder port answers with a sum (R29, R63). -/
def State.answerSum (sum : SWord) (s : State) : State := { s with sValid := true, sSum := sum }

/-- No request on the A port: its outputs are 0 (R30). -/
def State.idleA (s : State) : State := { s with sValid := false, sSum := 0 }

/-! ### The host -/

/-- Nothing presented (R30). The words are the host's; the model's host drives 0 (log 5). -/
def Presentation.idle : Presentation where
  eValid := false
  e := 0
  aValid := false
  a := 0

/-- The presentation of one word on its port, the other port idle. -/
def Presentation.ofPortWord : PortWord → Presentation
  | .e w => { Presentation.idle with eValid := true, e := w }
  | .a w => { Presentation.idle with aValid := true, a := w }

/-- The host drives the input wires (R27, R29). -/
def State.drive (p : Presentation) (s : State) : State :=
  { s with
    eValid := p.eValid
    eCmd := wordCmd p.e
    eCs := wordCs p.e
    eData := wordData p.e
    aValid := p.aValid
    aOp0 := wordOp0 p.a
    aOp1 := wordOp1 p.a }

/-- The presentation the host makes next: the first of its list, or nothing when the list is empty (R22; log 3, log 5). -/
def State.nextPresentation (s : State) : Presentation := s.pending.headD Presentation.idle

/-- The host makes its next presentation: its list position is the host's, not the block's (R22). -/
def State.present (s : State) : State := { s.drive s.nextPresentation with pending := s.pending.tail }

/-- The bytes the host writes to the transport for the response on the wires: `r_b0 .. r_b(r_len-1)` of an OK response, in
that order, and nothing otherwise (R33, R43). -/
def State.sentBytes (s : State) : List Byte :=
  if s.rValid ∧ s.rStatus = statusOk then [s.rB0, s.rB1, s.rB2, s.rB3].take s.rLen.toNat else []

/-- The host appends what it wrote to TXLOG (R33). -/
def State.record (s : State) : State := { s with txlog := s.txlog ++ s.sentBytes }

/-- The host will present this word next, before the rest of its list. -/
def State.placeWord (p : PortWord) (s : State) : State :=
  { s with pending := Presentation.ofPortWord p :: s.pending }

/-! ### Sequencing -/

/-- Run a second part on the next state of a first; a fault or a refusal of the first is the answer. -/
def andThen (o : Host.Outcome State Fault Refusal) (k : State → Host.Outcome State Fault Refusal) :
    Host.Outcome State Fault Refusal :=
  match o with
  | .next s => k s
  | .fault r => .fault r
  | .refused r => .refused r

end Sys2Proof.Machine
end

