-- ==== Sys2Proof/Machine/Adder.lean ====
section
/-! DEFINITION. The adder's operation at the A port (spec/40_adder.md R106). -/

namespace Sys2Proof.Machine

/-- `zext_17(cla10([op0, op1]))` (R63, R106). -/
def addncSum (op0 op1 : BitVec 16) : SWord := BitVec.ofNat 17 (cla10 [op0.toNat, op1.toNat])

/-- ADDNC (R106): no flag, no error, for any operands. -/
def execAddnc (op0 op1 : BitVec 16) (s : State) : Host.Outcome State Fault Refusal :=
  .next (s.answerSum (addncSum op0 op1))

end Sys2Proof.Machine
end

