-- ==== Sys2Proof/Machine/Catalog.lean ====
section
/-! DEFINITION. The catalog commands (spec/41_catalog_commands.md R110 to R119): the common rule, and one meaning per
(family, key) row over it. -/

namespace Sys2Proof.Machine

/-- `catalog_command(f, cs, data)` of R110: the lookup, which fails with InvalidData for an illegal code and otherwise
reads one ROM location, then the start byte, the command byte and what the checksum path appends (R72, R111). -/
def catalogCommand (rom : Memory) (f : Family) (cs : Bool) (data : BitVec 16) : Except ErrorKind (List Byte) :=
  match f.keyOf data with
  | none => .error .invalidData
  | some k =>
    .ok ([Config.startByte, rom.read (romIndex k)] ++
      checksumBytes (csPath (.catalog f) cs) (rom.read (romIndex k)) 0)

/-- PWM_FREQ.5 (R112). -/
def execPwmFreq5 (cs : Bool) (s : State) : Host.Outcome State Fault Refusal :=
  .next (s.answer (catalogCommand s.rom .pwmFreq cs 5))

/-- PWM_FREQ.10 (R112). -/
def execPwmFreq10 (cs : Bool) (s : State) : Host.Outcome State Fault Refusal :=
  .next (s.answer (catalogCommand s.rom .pwmFreq cs 10))

/-- PWM_FREQ.20 (R112). -/
def execPwmFreq20 (cs : Bool) (s : State) : Host.Outcome State Fault Refusal :=
  .next (s.answer (catalogCommand s.rom .pwmFreq cs 20))

/-- GATE_LOGIC.up (R113). -/
def execGateLogicUp (cs : Bool) (s : State) : Host.Outcome State Fault Refusal :=
  .next (s.answer (catalogCommand s.rom .gateLogic cs 0))

/-- GATE_LOGIC.down (R113). -/
def execGateLogicDown (cs : Bool) (s : State) : Host.Outcome State Fault Refusal :=
  .next (s.answer (catalogCommand s.rom .gateLogic cs 1))

/-- MAX_PWM.95 (R114). -/
def execMaxPwm95 (cs : Bool) (s : State) : Host.Outcome State Fault Refusal :=
  .next (s.answer (catalogCommand s.rom .maxPwm cs 95))

/-- MAX_PWM.99 (R114). -/
def execMaxPwm99 (cs : Bool) (s : State) : Host.Outcome State Fault Refusal :=
  .next (s.answer (catalogCommand s.rom .maxPwm cs 99))

/-- LASE_ON_POWER_UP.false (R115). -/
def execLaseOnPowerUpFalse (cs : Bool) (s : State) : Host.Outcome State Fault Refusal :=
  .next (s.answer (catalogCommand s.rom .laseOnPowerUp cs 0))

/-- LASE_ON_POWER_UP.true (R115). -/
def execLaseOnPowerUpTrue (cs : Bool) (s : State) : Host.Outcome State Fault Refusal :=
  .next (s.answer (catalogCommand s.rom .laseOnPowerUp cs 1))

/-- MODE.manual (R116). -/
def execModeManual (cs : Bool) (s : State) : Host.Outcome State Fault Refusal :=
  .next (s.answer (catalogCommand s.rom .mode cs 0))

/-- MODE.anc (R116). -/
def execModeAnc (cs : Bool) (s : State) : Host.Outcome State Fault Refusal :=
  .next (s.answer (catalogCommand s.rom .mode cs 1))

/-- MODE.anv (R116). -/
def execModeAnv (cs : Bool) (s : State) : Host.Outcome State Fault Refusal :=
  .next (s.answer (catalogCommand s.rom .mode cs 2))

/-- MODE.man_closed (R116). -/
def execModeManClosed (cs : Bool) (s : State) : Host.Outcome State Fault Refusal :=
  .next (s.answer (catalogCommand s.rom .mode cs 3))

/-- MODE.anv_closed (R116). -/
def execModeAnvClosed (cs : Bool) (s : State) : Host.Outcome State Fault Refusal :=
  .next (s.answer (catalogCommand s.rom .mode cs 4))

/-- LASE.false (R117). -/
def execLaseFalse (cs : Bool) (s : State) : Host.Outcome State Fault Refusal :=
  .next (s.answer (catalogCommand s.rom .lase cs 0))

/-- LASE.true (R117). -/
def execLaseTrue (cs : Bool) (s : State) : Host.Outcome State Fault Refusal :=
  .next (s.answer (catalogCommand s.rom .lase cs 1))

end Sys2Proof.Machine
end

