-- ==== Sys2Proof/Machine/Percent.lean ====
section
/-! DEFINITION. The percent command and the adder checksum path (spec/42_percent_command.md R130 to R140). -/

namespace Sys2Proof.Machine

/-- `percent(cs, data)` of R130: InvalidData when `data[15] = 1` (R133), else the start byte, the set-percent byte, the
data byte (R134) and what the checksum path appends, computed from the percentage and not from the data byte (R139). -/
def percentCommand (cs : Bool) (data : BitVec 16) : Except ErrorKind (List Byte) :=
  if data.getLsbD 15 then .error .invalidData
  else
    .ok ([Config.startByte, Config.setPercentByte, percentDataByte data] ++
      checksumBytes (csPath .percent cs) Config.setPercentByte (percentIp data))

/-- PERCENT (R130). -/
def execPercent (cs : Bool) (data : BitVec 16) (s : State) : Host.Outcome State Fault Refusal :=
  .next (s.answer (percentCommand cs data))

end Sys2Proof.Machine
end

