-- ==== Sys2Proof/Machine/Status.lean ====
section
/-! DEFINITION. The status request (spec/43_status_request.md R150, R151). -/

namespace Sys2Proof.Machine

/-- `[0x7E]`, with no start byte; `cs` and `data` are ignored, and the checksum path is CS_NONE always (R67, R72, R150). -/
def statusCommand (cs : Bool) (_data : BitVec 16) : Except ErrorKind (List Byte) :=
  .ok ([Config.statusRequestByte] ++ checksumBytes (csPath .status cs) Config.statusRequestByte 0)

/-- STATUS_REQUEST (R150). -/
def execStatusRequest (cs : Bool) (data : BitVec 16) (s : State) : Host.Outcome State Fault Refusal :=
  .next (s.answer (statusCommand cs data))

end Sys2Proof.Machine
end

