-- ==== Sys2Proof/Machine/Dispatch.lean ====
section
/-! DEFINITION. The meaning of every instruction: one arm per constructor. -/

namespace Sys2Proof.Machine

def exec (i : Instr) (s : State) : Host.Outcome State Fault Refusal :=
  match i with
  | .pwmFreq5 cs => Sys2Proof.Machine.execPwmFreq5 cs s
  | .pwmFreq10 cs => Sys2Proof.Machine.execPwmFreq10 cs s
  | .pwmFreq20 cs => Sys2Proof.Machine.execPwmFreq20 cs s
  | .gateLogicUp cs => Sys2Proof.Machine.execGateLogicUp cs s
  | .gateLogicDown cs => Sys2Proof.Machine.execGateLogicDown cs s
  | .maxPwm95 cs => Sys2Proof.Machine.execMaxPwm95 cs s
  | .maxPwm99 cs => Sys2Proof.Machine.execMaxPwm99 cs s
  | .laseOnPowerUpFalse cs => Sys2Proof.Machine.execLaseOnPowerUpFalse cs s
  | .laseOnPowerUpTrue cs => Sys2Proof.Machine.execLaseOnPowerUpTrue cs s
  | .modeManual cs => Sys2Proof.Machine.execModeManual cs s
  | .modeAnc cs => Sys2Proof.Machine.execModeAnc cs s
  | .modeAnv cs => Sys2Proof.Machine.execModeAnv cs s
  | .modeManClosed cs => Sys2Proof.Machine.execModeManClosed cs s
  | .modeAnvClosed cs => Sys2Proof.Machine.execModeAnvClosed cs s
  | .laseFalse cs => Sys2Proof.Machine.execLaseFalse cs s
  | .laseTrue cs => Sys2Proof.Machine.execLaseTrue cs s
  | .percent cs data => Sys2Proof.Machine.execPercent cs data s
  | .statusRequest cs data => Sys2Proof.Machine.execStatusRequest cs data s
  | .addnc op0 op1 => Sys2Proof.Machine.execAddnc op0 op1 s

end Sys2Proof.Machine
end

