-- ==== Sys2Proof/Machine/Ports.lean ====
section
/-! DEFINITION. One evaluation of each port (spec/10_state.md R30): the operation on the input wires is decoded and run;
and beside it the port as a function of its word alone (spec/30_encoding.md R62, R152), which the evaluation refines. -/

namespace Sys2Proof.Machine

/-- One evaluation of the E port: the response to the word on the wires when `e_valid = 1`, a word of no operation taking
its error, and all outputs 0 when `e_valid = 0` (R30, R74). -/
def evalE (s : State) : Host.Outcome State Fault Refusal :=
  if s.eValid then
    match decodeE s.eWord with
    | .ok i => exec i s
    | .error e => .next (s.raise e)
  else .next s.idleE

/-- One evaluation of the A port: every word is an operation, so no error can be taken (R29, R30, R168). -/
def evalA (s : State) : Host.Outcome State Fault Refusal :=
  if s.aValid then exec (decodeA s.aWord) s else .next s.idleA

/-- The E port as a function of its word and of the ROM: the dispatch by command shape (R64, R152) to the command's own
rule (R110, R130, R150), or UnrecognizedCommand. -/
def encoderPort (rom : Memory) (w : EWord) : Except ErrorKind (List Byte) :=
  match shapeOf (wordCmd w) with
  | .catalog f => catalogCommand rom f (wordCs w) (wordData w)
  | .percent => percentCommand (wordCs w) (wordData w)
  | .status => statusCommand (wordCs w) (wordData w)
  | .bad => .error .unrecognizedCommand

/-- The A port as a function of its word (R63). -/
def adderPort (w : AWord) : SWord := addncSum (wordOp0 w) (wordOp1 w)

end Sys2Proof.Machine
end

