-- ==== Sys2Proof/Machine/Step.lean ====
section
/-! DEFINITION. One step: the host presents, both ports evaluate, the host records what it sent. -/

namespace Sys2Proof.Machine

/-- One step (R14, R30): the host makes its next presentation, the E port and the A port answer it, and the host appends
the bytes of an OK response to TXLOG (R33). The ports share nothing, so their order shows nowhere (R30, R197; log 4). -/
def step (s : State) : Host.Outcome State Fault Refusal :=
  andThen (andThen (evalE s.present) evalA) fun t => .next t.record

/-- `s` with the table's word as the host's next presentation, on the port of its format (log 6). -/
def State.withFetchWord (s : State) (nbits w : Nat) : State :=
  match tablePortWord nbits w with
  | some p => s.placeWord p
  | none => s

end Sys2Proof.Machine
end

