-- ==== Sys2Proof/Machine/HostForm.lean ====
section
/-! DEFINITION. The host's side of a request: the source-level call `encode(command, data, checksum_enabled)`, the words
that stand for it (spec/30_encoding.md R69, R80), and its result by the source's own rules (spec/41_catalog_commands.md
R110, spec/42_percent_command.md R131 to R136, spec/60_exceptions.md R161, R162). The block never sees this form. -/

namespace Sys2Proof.Machine

/-- A source-level `data` value (R60, R69): a non-negative number `num / (denPred + 1)`, a negative number, a string or a
boolean (log 15). -/
inductive SourceData where
  | number (num denPred : Nat)
  | negative
  | text (s : String)
  | flag (b : Bool)
deriving DecidableEq, Repr

/-- An Encoding Request at the source's level (R60, R80). -/
structure SourceRequest where
  command : String
  data : SourceData
  checksumEnabled : Bool
deriving DecidableEq, Repr

/-- Which shape a command string has: a recognised name its own, any other string BAD (R64). -/
def sourceShape (command : String) : Shape :=
  if command = "pwm_freq" then .catalog .pwmFreq
  else if command = "gate_logic" then .catalog .gateLogic
  else if command = "max_pwm" then .catalog .maxPwm
  else if command = "lase_on_power_up" then .catalog .laseOnPowerUp
  else if command = "mode" then .catalog .mode
  else if command = "lase" then .catalog .lase
  else if command = "percent" then .percent
  else if command = "status_request" then .status
  else .bad

/-- The source's spelling of a key (R25). -/
def keySource : Key → SourceData
  | .pwmFreq5 => .number 5 0
  | .pwmFreq10 => .number 10 0
  | .pwmFreq20 => .number 20 0
  | .gateLogicUp => .text "up"
  | .gateLogicDown => .text "down"
  | .maxPwm95 => .number 95 0
  | .maxPwm99 => .number 99 0
  | .laseOnPowerUpFalse => .flag false
  | .laseOnPowerUpTrue => .flag true
  | .modeManual => .text "manual"
  | .modeAnc => .text "anc"
  | .modeAnv => .text "anv"
  | .modeManClosed => .text "man_closed"
  | .modeAnvClosed => .text "anv_closed"
  | .laseFalse => .flag false
  | .laseTrue => .flag true

/-- Two source values are the same value: numbers as fractions, the rest as spelled. -/
def SourceData.same : SourceData → SourceData → Bool
  | .number n d, .number n' d' => n * (d' + 1) == n' * (d + 1)
  | .text s, .text s' => s == s'
  | .flag b, .flag b' => b == b'
  | _, _ => false

/-- The keys of a family, in the order of R25. -/
def familyKeys : Family → List Key
  | .pwmFreq => [.pwmFreq5, .pwmFreq10, .pwmFreq20]
  | .gateLogic => [.gateLogicUp, .gateLogicDown]
  | .maxPwm => [.maxPwm95, .maxPwm99]
  | .laseOnPowerUp => [.laseOnPowerUpFalse, .laseOnPowerUpTrue]
  | .mode => [.modeManual, .modeAnc, .modeAnv, .modeManClosed, .modeAnvClosed]
  | .lase => [.laseFalse, .laseTrue]

/-- The key of a family that a source value is, if it is one (R25, R65). -/
def sourceKey (f : Family) (d : SourceData) : Option Key := (familyKeys f).find? fun k => d.same (keySource k)

/-- `data` is a code for the source value `d` under a shape (R69): of a catalog family the key's code, or any illegal code
where `d` is no key; of percent `trunc(256 * x)` for a number below 256; of the rest any code. -/
def codesData (sh : Shape) (d : SourceData) (data : BitVec 16) : Prop :=
  match sh with
  | .catalog f =>
    match sourceKey f d with
    | some k => data = k.code
    | none => f.keyOf data = none
  | .percent =>
    match d with
    | .number n m => n < 256 * (m + 1) ∧ data.toNat = 256 * n / (m + 1)
    | _ => False
  | .status => True
  | .bad => True

/-- `w` is a word for the source-level request (R69). -/
def codes (r : SourceRequest) (w : EWord) : Prop :=
  shapeOf (wordCmd w) = sourceShape r.command ∧ wordCs w = r.checksumEnabled ∧
    codesData (sourceShape r.command) r.data (wordData w)

/-- The source's result of a percent request: `x = num / (denPred + 1)`, the data byte `trunc(2x)` when it is a byte
(R132, R133), the checksum over the percentage (R135), of which the integer part enters the adder (R136). A string or a
boolean is not a number (R140; log 15); for a negative number the source gives no result (R69). -/
def sourcePercent (d : SourceData) (checksum : Bool) : Option (Except ErrorKind (List Byte)) :=
  match d with
  | .number n m =>
    if 256 ≤ 2 * n / (m + 1) then some (.error .invalidData)
    else
      some (.ok ([Config.startByte, Config.setPercentByte, BitVec.ofNat 8 (2 * n / (m + 1))] ++
        if checksum then [not8 (cla10 [Config.setPercentByte.toNat, n / (m + 1)])] else []))
  | .negative => none
  | .text _ => some (.error .invalidData)
  | .flag _ => some (.error .invalidData)

/-- The source's `encode`, for the catalog a ROM holds: its result where the source gives one (R110, R111, R134, R150,
R161, R162). -/
def sourceEncode (rom : Memory) (r : SourceRequest) : Option (Except ErrorKind (List Byte)) :=
  match sourceShape r.command with
  | .catalog f =>
    match sourceKey f r.data with
    | some k =>
      some (.ok ([Config.startByte, rom.read (romIndex k)] ++
        if r.checksumEnabled then [not8 (rom.read (romIndex k)).toNat] else []))
    | none => some (.error .invalidData)
  | .percent => sourcePercent r.data r.checksumEnabled
  | .status => some (.ok [Config.statusRequestByte])
  | .bad => some (.error .unrecognizedCommand)

end Sys2Proof.Machine
end

