-- ==== Sys2Proof/Safety.lean ====
section
/-! DEFINITION. What the claims about a run are stated in: a step that completes, outputs that are a function of the
inputs (spec/10_state.md R30), and responses the spec allows (spec/30_encoding.md R62). -/

namespace Sys2Proof.Machine

/-- The step answers a next state: no trap, hang or stop (R17). -/
def Safe (s : State) : Prop := ∃ t, step s = .next t

/-- The ports are combinational (R30): the output wires are the port functions of the input wires, and 0 while nothing is
presented. -/
def Combinational (s : State) : Prop :=
  s.rValid = s.eValid ∧
  s.rWord = (if s.eValid then responseWord (encoderPort s.rom s.eWord) else 0) ∧
  s.sValid = s.aValid ∧
  s.sSum = (if s.aValid then adderPort s.aWord else 0)

/-- The response on the wires is one the spec allows (R28, R62): status 3 is never produced, the length is 1 to 4 for an
OK response and 0 for any other, and a lane at or beyond the length is 0. -/
def LegalResponse (s : State) : Prop :=
  s.rStatus ≠ 3 ∧
  (s.rValid = true ∧ s.rStatus = 0 → 1 ≤ s.rLen.toNat ∧ s.rLen.toNat ≤ 4) ∧
  (s.rValid = false ∨ s.rStatus ≠ 0 → s.rLen = 0) ∧
  (s.rLen.toNat ≤ 0 → s.rB0 = 0) ∧ (s.rLen.toNat ≤ 1 → s.rB1 = 0) ∧
  (s.rLen.toNat ≤ 2 → s.rB2 = 0) ∧ (s.rLen.toNat ≤ 3 → s.rB3 = 0)

/-- The two states hold the same catalog, and the host presents the same strobe and word on the E port next. -/
def SameERequest (s t : State) : Prop :=
  s.rom = t.rom ∧ s.nextPresentation.eValid = t.nextPresentation.eValid ∧ s.nextPresentation.e = t.nextPresentation.e

/-- The host presents the same strobe and word on the A port next. -/
def SameARequest (s t : State) : Prop :=
  s.nextPresentation.aValid = t.nextPresentation.aValid ∧ s.nextPresentation.a = t.nextPresentation.a

/-- The two states agree on every output wire of the E port. -/
def SameEOutputs (s t : State) : Prop :=
  s.rValid = t.rValid ∧ s.rStatus = t.rStatus ∧ s.rLen = t.rLen ∧ s.rB0 = t.rB0 ∧ s.rB1 = t.rB1 ∧ s.rB2 = t.rB2 ∧
    s.rB3 = t.rB3

/-- The two states agree on every output wire of the A port. -/
def SameAOutputs (s t : State) : Prop := s.sValid = t.sValid ∧ s.sSum = t.sSum

/-- The response a presentation gets on the E port, if it presents a request (R18, R62). -/
def responseTo (rom : Memory) (p : Presentation) : Option (Except ErrorKind (List Byte)) :=
  if p.eValid then some (encoderPort rom p.e) else none

/-- The bytes a response contributes to TXLOG: its sequence when it is OK, nothing for an error (R33). -/
def txBytes : Option (Except ErrorKind (List Byte)) → List Byte
  | some (.ok bytes) => bytes
  | _ => []

/-- The catalog operation `i cs` answers from ROM location `loc`: `[0x5B, c]` with `cs = 0` and `[0x5B, c, 255 - c]` with
`cs = 1`, on the response wires, and changes nothing else of the state (R70 layouts L2 and L3C, R110, R111). -/
def CatalogAnswers (i : Bool → Instr) (loc : Fin 16) : Prop :=
  ∀ s : State,
    exec (i false) s = .next { s with
      rValid := true, rStatus := 0, rLen := 2, rB0 := 0x5B, rB1 := s.rom.read loc, rB2 := 0, rB3 := 0 } ∧
    exec (i true) s = .next { s with
      rValid := true, rStatus := 0, rLen := 3, rB0 := 0x5B, rB1 := s.rom.read loc,
      rB2 := 255 - s.rom.read loc, rB3 := 0 }

/-- The E words of a command code: with a data code that `legal` maps to an operation, that operation, for either `cs`;
with any other, InvalidData (R65, R74, R76). -/
def FamilyDecodes (cmd : BitVec 4) (legal : BitVec 16 → Option (Bool → Instr)) : Prop :=
  ∀ (cs : Bool) (data : BitVec 16),
    decodeE (cmd ++ BitVec.ofBool cs ++ data) =
      match legal data with
      | some i => .ok (i cs)
      | none => .error .invalidData

/-- Nothing but the response wires of the E port differs (R20 to R23, R30). -/
def SameButResponse (s t : State) : Prop :=
  t.eValid = s.eValid ∧ t.eCmd = s.eCmd ∧ t.eCs = s.eCs ∧ t.eData = s.eData ∧
  t.aValid = s.aValid ∧ t.aOp0 = s.aOp0 ∧ t.aOp1 = s.aOp1 ∧
  t.sValid = s.sValid ∧ t.sSum = s.sSum ∧
  (∀ loc, t.rom.read loc = s.rom.read loc) ∧ t.rom = s.rom ∧ t.pending = s.pending ∧ t.txlog = s.txlog

/-- Nothing but the output wires of the A port differs (R20 to R23, R30, R105). -/
def SameButSum (s t : State) : Prop :=
  t.eValid = s.eValid ∧ t.eCmd = s.eCmd ∧ t.eCs = s.eCs ∧ t.eData = s.eData ∧
  t.aValid = s.aValid ∧ t.aOp0 = s.aOp0 ∧ t.aOp1 = s.aOp1 ∧
  t.rValid = s.rValid ∧ t.rStatus = s.rStatus ∧ t.rLen = s.rLen ∧
  t.rB0 = s.rB0 ∧ t.rB1 = s.rB1 ∧ t.rB2 = s.rB2 ∧ t.rB3 = s.rB3 ∧
  (∀ loc, t.rom.read loc = s.rom.read loc) ∧ t.rom = s.rom ∧ t.pending = s.pending ∧ t.txlog = s.txlog

end Sys2Proof.Machine
end

