-- ==== Sys2Proof/Certificates/Slice0/Obligations.lean ====
section
/-! DEFINITION. The statements for the provers, each one rule or one whole-machine sentence of spec/. -/

open Sys2Proof Sys2Proof.Machine

/-! ### Reset and invariants -/

/-- R34, the table of values at power-up, except the input wires, which the model's host drives low (log 5). -/
def Obligations.ResetLeavesOutputsZeroAndCatalogAsBuilt : Prop :=
  State.reset.rValid = State.reset.eValid ∧ State.reset.sValid = State.reset.aValid ∧
  State.reset.rWord = 0 ∧ State.reset.sSum = 0 ∧ State.reset.txlog = [] ∧
  (∀ k, State.reset.rom.read (romIndex k) = Config.cat (romIndex k)) ∧
  Config.startByte = 0x5B ∧ Config.statusRequestByte = 0x7E ∧ Config.setPercentByte = 0x7F

/-- R30 at power-up. -/
def Obligations.ResetPortsAreCombinational : Prop := Combinational State.reset ∧ LegalResponse State.reset

/-- R30: after every step, from any state at all, the outputs are the port functions of the inputs. The port functions
dispatch on the command code and do not go through decode and exec, so this is also a refinement. -/
def Obligations.StepLeavesPortsCombinational : Prop :=
  ∀ s t, step s = .next t → Combinational t

/-- R28, R62, R163: whatever the state before, the response after a step is one of those the spec allows. -/
def Obligations.StepLeavesLegalResponse : Prop :=
  ∀ s t, step s = .next t → LegalResponse t

/-- R26, R41: the catalog is never written; its canonical form is kept. -/
def Obligations.StepNeverWritesCatalog : Prop :=
  ∀ s t, step s = .next t →
    t.rom = s.rom ∧ (∀ loc, t.rom.read loc = s.rom.read loc) ∧ (Memory.wf s.rom → Memory.wf t.rom)

/-! ### The step -/

/-- R17, R77: no trap, no hang, no stop, from any state and for any presentation. -/
def Obligations.StepAlwaysAnswersNext : Prop := ∀ s, Safe s

/-- R30, R74: when the E word presented decodes to an instruction, the step runs that instruction. The sequence around it
is the model's choice: the instruction at the state in which the host's next presentation is on the inputs and the host's
record at the end (log 3, DESIGN CHOICE), the E port before the A port (log 4, DEDUCED). -/
def Obligations.StepRunsDecodedEncoderInstr : Prop :=
  ∀ s i, s.nextPresentation.eValid = true → decode (.e s.nextPresentation.e) = .ok i → i.wf = true →
    step s = andThen (andThen (exec i s.present) evalA) (fun t => .next t.record)

/-- R30, R106: when an A word is presented, the step runs the ADDNC it decodes to. The sequence around it is the model's
choice: the host's next presentation first and the host's record at the end (log 3, DESIGN CHOICE), the E port before the
A port (log 4, DEDUCED). -/
def Obligations.StepRunsDecodedAdderInstr : Prop :=
  ∀ s i, s.nextPresentation.aValid = true → decode (.a s.nextPresentation.a) = .ok i →
    step s = andThen (andThen (evalE s.present) (exec i)) (fun t => .next t.record)

/-- R30 with one port driven: the other port's outputs are 0. The step is exec of the instruction and nothing else but
the idle port's zeros and, by the model's choice, the host's next presentation and its record (log 3, DESIGN CHOICE). -/
def Obligations.StepWithOnePortDriven : Prop :=
  (∀ s w a i, s.nextPresentation = ⟨true, w, false, a⟩ → decode (.e w) = .ok i →
    step s = andThen (exec i s.present) (fun t => .next t.idleA.record)) ∧
  (∀ s w a i, s.nextPresentation = ⟨false, w, true, a⟩ → decode (.a a) = .ok i →
    step s = andThen (exec i s.present.idleE) (fun t => .next t.record))

/-- R30 (T7 of 95_test_vectors.md): with nothing presented every output is 0 and TXLOG stays. That a
presentation of nothing is taken off the host's list is the model's choice (log 3). -/
def Obligations.StepIdleDrivesZeros : Prop :=
  ∀ s w a, s.nextPresentation = ⟨false, w, false, a⟩ → ∃ t, step s = .next t ∧
    t.rValid = false ∧ t.rStatus = 0 ∧ t.rLen = 0 ∧ t.rB0 = 0 ∧ t.rB1 = 0 ∧ t.rB2 = 0 ∧ t.rB3 = 0 ∧
    t.sValid = false ∧ t.sSum = 0 ∧ t.txlog = s.txlog ∧ t.rom = s.rom ∧ t.pending = s.pending.tail

/-- R30, R197: the two ports do not affect each other; evaluating them in either order gives the same state. -/
def Obligations.PortsDoNotAffectEachOther : Prop :=
  ∀ s, andThen (evalE s) evalA = andThen (evalA s) evalE

/-- The model's choice (log 6, and log 3 for the host's record): the host's placing of a table word makes the next step
run exactly the instruction the decoder reads. -/
def Obligations.PlacedWordRunsNext : Prop :=
  ∀ (s : State) (nbits w : Nat) (i : Instr), decodeTableWord nbits w = some i →
    step (s.withFetchWord nbits w) =
      if i.onEPort then andThen (exec i (s.withFetchWord nbits w).present) (fun t => .next t.idleA.record)
      else andThen (exec i (s.withFetchWord nbits w).present.idleE) (fun t => .next t.record)

/-! ### No state between requests -/

/-- R20, R30, R41: a port's response is a function of the request word on that port and, for the E port, of the constant
catalog: nothing else of the state, and nothing of the other port, enters it. -/
def Obligations.ResponseDependsOnRequestAlone : Prop :=
  ∀ s t s' t', step s = .next s' → step t = .next t' →
    (SameERequest s t → SameEOutputs s' t') ∧ (SameARequest s t → SameAOutputs s' t')

/-- R166, R167: the request after a failing one is answered as if the failing one had not been presented, and the
failing one contributes nothing to TXLOG. The host's list of presentations is the model's (log 3). -/
def Obligations.ErrorLeavesNoTrace : Prop :=
  ∀ s p q ps s1 s2 t2 e, s.pending = p :: q :: ps → responseTo s.rom p = some (.error e) →
    step s = .next s1 → step s1 = .next s2 → step { s with pending := q :: ps } = .next t2 →
    SameEOutputs s2 t2 ∧ SameAOutputs s2 t2 ∧ s2.txlog = t2.txlog ∧ s2.rom = t2.rom ∧ s2.pending = t2.pending

/-- What R33 has the host append: the bytes of an OK response, in order, and nothing for an error or an idle port. That
the machine's step makes this record, for the host's next presentation, is the model's choice (log 3, DESIGN CHOICE). -/
def Obligations.StepAppendsResponseBytesToTxlog : Prop :=
  ∀ s, ∃ t, step s = .next t ∧
    t.txlog = s.txlog ++
      (if t.rValid = true ∧ t.rStatus = 0 then [t.rB0, t.rB1, t.rB2, t.rB3].take t.rLen.toNat else []) ∧
    t.txlog = s.txlog ++ txBytes (responseTo s.rom s.nextPresentation)

/-- R18, R49: over any list of presentations, TXLOG grows by the responses' bytes in request order, and the run completes. The
list the steps consume is the model's (log 3). -/
def Obligations.RunTxlogIsConcatenationInRequestOrder : Prop :=
  ∀ (ps : List Presentation) (s : State), s.pending = ps →
    ∃ t : State, Host.Core.run Sys2Proof.core ps.length s = .next t ∧
    t.txlog = s.txlog ++ (ps.map fun p => txBytes (responseTo s.rom p)).flatten ∧ t.pending = [] ∧ t.rom = s.rom

/-! ### Encoding -/

/-- No bit of an encoding is dropped: every well-formed instruction decodes from its word. -/
def Obligations.DecodeOfEncode : Prop := ∀ i : Instr, i.wf = true → decode (encode i) = .ok i

/-- Each word has one meaning: an instruction decoded from a word is well-formed and encodes to that word. -/
def Obligations.EncodeOfDecode : Prop := ∀ p i, decode p = .ok i → i.wf = true ∧ encode i = p

/-- R74: a word belongs to a row of the opcode table exactly when it decodes to that row's instruction. -/
def Obligations.DecodeFollowsOpcodeRows : Prop :=
  ∀ r ∈ opcodeRows, ∀ w, r.matches w = true ↔ ∃ i, decodeE w = .ok i ∧ i.mnemonic = r.mnemonic

/-- R74: rows are disjoint. -/
def Obligations.OpcodeRowsAreDisjoint : Prop :=
  ∀ r ∈ opcodeRows, ∀ r' ∈ opcodeRows, ∀ w, r.matches w = true → r'.matches w = true → r = r'

/-- R75, R161, R164: UnrecognizedCommand exactly for command codes 8 to 15, whatever the other bits. -/
def Obligations.UnrecognizedCommandExactly : Prop :=
  ∀ w : EWord, decodeE w = .error .unrecognizedCommand ↔ 8 ≤ w.toNat / 2 ^ 17

/-- R76, R162: InvalidData exactly for an illegal key code of a recognised family and for a percent word with bit 15 set. -/
def Obligations.InvalidDataExactly : Prop :=
  ∀ w : EWord, decodeE w = .error .invalidData ↔
    (w.toNat / 2 ^ 17 = 0 ∧ w.toNat % 2 ^ 16 ≠ 5 ∧ w.toNat % 2 ^ 16 ≠ 10 ∧ w.toNat % 2 ^ 16 ≠ 20) ∨
    (w.toNat / 2 ^ 17 = 1 ∧ 2 ≤ w.toNat % 2 ^ 16) ∨
    (w.toNat / 2 ^ 17 = 2 ∧ w.toNat % 2 ^ 16 ≠ 95 ∧ w.toNat % 2 ^ 16 ≠ 99) ∨
    (w.toNat / 2 ^ 17 = 3 ∧ 2 ≤ w.toNat % 2 ^ 16) ∨
    (w.toNat / 2 ^ 17 = 4 ∧ 5 ≤ w.toNat % 2 ^ 16) ∨
    (w.toNat / 2 ^ 17 = 5 ∧ 2 ≤ w.toNat % 2 ^ 16) ∨
    (w.toNat / 2 ^ 17 = 6 ∧ 2 ^ 15 ≤ w.toNat % 2 ^ 16)

/-- R74: words of the table, written out from the spec, decode to the instructions they stand for. -/
def Obligations.TableWordsDecodeAsPrinted : Prop :=
  decode (.e 0x01000A) = .ok (.pwmFreq10 true) ∧ decode (.e 0x020001) = .ok (.gateLogicDown false) ∧
  decode (.e 0x05005F) = .ok (.maxPwm95 true) ∧ decode (.e 0x060001) = .ok (.laseOnPowerUpTrue false) ∧
  decode (.e 0x090002) = .ok (.modeAnv true) ∧ decode (.e 0x0B0000) = .ok (.laseFalse true) ∧
  decode (.e 0x0D0A00) = .ok (.percent true 0x0A00) ∧ decode (.e 0x0E1234) = .ok (.statusRequest false 0x1234) ∧
  decode (.a 0x00010013) = .ok (.addnc 1 19)

/-- R77: how many of the 2^21 E words raise each error, and how many are operations. -/
def Obligations.WordCountsByOutcome : Prop :=
  Nat.card { w : Fin (2 ^ 21) // decodeE (BitVec.ofFin w) = .error .unrecognizedCommand } = 1048576 ∧
  Nat.card { w : Fin (2 ^ 21) // decodeE (BitVec.ofFin w) = .error .invalidData } = 851936 ∧
  Nat.card { w : Fin (2 ^ 21) // ∃ k cs, decodeE (BitVec.ofFin w) = .ok (Key.instr k cs) } = 32 ∧
  Nat.card { w : Fin (2 ^ 21) // ∃ cs data, decodeE (BitVec.ofFin w) = .ok (.percent cs data) } = 65536 ∧
  Nat.card { w : Fin (2 ^ 21) // ∃ cs data, decodeE (BitVec.ofFin w) = .ok (.statusRequest cs data) } = 131072

/-! ### The catalog commands -/

/-- R112. -/
def Obligations.PwmFreqAnswersCatalogByte : Prop :=
  CatalogAnswers .pwmFreq5 0 ∧ CatalogAnswers .pwmFreq10 1 ∧ CatalogAnswers .pwmFreq20 2 ∧
  FamilyDecodes 0 fun data =>
    if data = 5 then some .pwmFreq5 else if data = 10 then some .pwmFreq10
    else if data = 20 then some .pwmFreq20 else none

/-- R113. -/
def Obligations.GateLogicAnswersCatalogByte : Prop :=
  CatalogAnswers .gateLogicUp 3 ∧ CatalogAnswers .gateLogicDown 4 ∧
  FamilyDecodes 1 fun data =>
    if data = 0 then some .gateLogicUp else if data = 1 then some .gateLogicDown else none

/-- R114. -/
def Obligations.MaxPwmAnswersCatalogByte : Prop :=
  CatalogAnswers .maxPwm95 5 ∧ CatalogAnswers .maxPwm99 6 ∧
  FamilyDecodes 2 fun data =>
    if data = 95 then some .maxPwm95 else if data = 99 then some .maxPwm99 else none

/-- R115. -/
def Obligations.LaseOnPowerUpAnswersCatalogByte : Prop :=
  CatalogAnswers .laseOnPowerUpFalse 7 ∧ CatalogAnswers .laseOnPowerUpTrue 8 ∧
  FamilyDecodes 3 fun data =>
    if data = 0 then some .laseOnPowerUpFalse else if data = 1 then some .laseOnPowerUpTrue else none

/-- R116. -/
def Obligations.ModeAnswersCatalogByte : Prop :=
  CatalogAnswers .modeManual 9 ∧ CatalogAnswers .modeAnc 10 ∧ CatalogAnswers .modeAnv 11 ∧
  CatalogAnswers .modeManClosed 12 ∧ CatalogAnswers .modeAnvClosed 13 ∧
  FamilyDecodes 4 fun data =>
    if data = 0 then some .modeManual else if data = 1 then some .modeAnc
    else if data = 2 then some .modeAnv else if data = 3 then some .modeManClosed
    else if data = 4 then some .modeAnvClosed else none

/-- R117. -/
def Obligations.LaseAnswersCatalogByte : Prop :=
  CatalogAnswers .laseFalse 14 ∧ CatalogAnswers .laseTrue 15 ∧
  FamilyDecodes 5 fun data =>
    if data = 0 then some .laseFalse else if data = 1 then some .laseTrue else none

/-- R111: every catalog pair answers its ROM location, and the checksum byte is the complement of the command byte. -/
def Obligations.CatalogChecksumComplementsCommandByte : Prop :=
  ∀ k : Key, CatalogAnswers k.instr (romIndex k) ∧ ∀ s : State, ∃ t, exec (k.instr true) s = .next t ∧
    t.rB2 = not8 t.rB1.toNat ∧ t.rB1.toNat + t.rB2.toNat = 255 ∧ t.rB1 ^^^ t.rB2 = 0xFF ∧ t.rB1 ≠ t.rB2 ∧ t.rB2 = ~~~ t.rB1

/-- R118: `cs` never changes whether a catalog command fails; the first byte is 0x5B, the second is the same with and
without checksum, the length is 2 or 3; all of it a function of `cmd`, `cs`, `data` and the constant catalog. -/
def Obligations.CatalogChecksumFlagOnlyAppends : Prop :=
  (∀ (k : Key) (s s' : State), s.rom = s'.rom → ∃ t0 t1 t0' t1', exec (k.instr false) s = .next t0 ∧
    exec (k.instr true) s = .next t1 ∧ exec (k.instr false) s' = .next t0' ∧ exec (k.instr true) s' = .next t1' ∧
    t0.rWord = t0'.rWord ∧ t1.rWord = t1'.rWord ∧
    t0.rStatus = 0 ∧ t1.rStatus = 0 ∧ t0.rB0 = 0x5B ∧ t1.rB0 = 0x5B ∧ t0.rB1 = t1.rB1 ∧ t0.rLen = 2 ∧ t1.rLen = 3) ∧
  (∀ (f : Family) (data : BitVec 16), f.keyOf data = none → ∀ cs,
    decodeE (f.cmd ++ BitVec.ofBool cs ++ data) = .error .invalidData)

/-! ### The percent command -/

/-- R130, with the data byte and the sum in the rule's arithmetic on the number `data = 256 q`. -/
def Obligations.PercentAnswersDataByteAndAdderChecksum : Prop :=
  ∀ (s : State) (data : BitVec 16),
    (data.toNat < 2 ^ 15 →
      exec (.percent false data) s = .next { s with
        rValid := true, rStatus := 0, rLen := 3, rB0 := 0x5B, rB1 := 0x7F,
        rB2 := BitVec.ofNat 8 (data.toNat / 128), rB3 := 0 } ∧
      exec (.percent true data) s = .next { s with
        rValid := true, rStatus := 0, rLen := 4, rB0 := 0x5B, rB1 := 0x7F,
        rB2 := BitVec.ofNat 8 (data.toNat / 128),
        rB3 := BitVec.ofNat 8 (255 - cla10 [0x7F, data.toNat / 256]) } ∧
      ∀ cs, decodeE ((6 : BitVec 4) ++ BitVec.ofBool cs ++ data) = .ok (.percent cs data)) ∧
    (2 ^ 15 ≤ data.toNat → ∀ cs,
      exec (.percent cs data) s = .next { s with
        rValid := true, rStatus := 2, rLen := 0, rB0 := 0, rB1 := 0, rB2 := 0, rB3 := 0 } ∧
      decodeE ((6 : BitVec 4) ++ BitVec.ofBool cs ++ data) = .error .invalidData)

/-- R66, R132, R155: the three quantities of a percent value are the truncations the rule names. -/
def Obligations.PercentFieldsAreTruncations : Prop :=
  ∀ data : BitVec 16, (percentTwice data).toNat = 2 * data.toNat / 256 ∧ (percentIp data).toNat = data.toNat / 256 ∧
    (percentFr data).toNat = data.toNat % 256 ∧
    (data.toNat < 2 ^ 15 → (percentDataByte data).toNat = 2 * data.toNat / 256 ∧ 2 * data.toNat / 256 < 256) ∧
    (256 ≤ 2 * data.toNat / 256 ↔ data.getLsbD 15 = true)

/-- R135: the closed form of the checksum byte over the digits of the integer part. -/
def Obligations.PercentChecksumClosedForm : Prop :=
  ∀ (s : State) (data : BitVec 16) (h t u : Nat), data.toNat < 2 ^ 15 → h ≤ 1 → t ≤ 9 → u ≤ 9 →
    data.toNat / 256 = 100 * h + 10 * t + u → ∃ s', exec (.percent true data) s = .next s' ∧
      s'.rB3.toNat = 255 - (100 * (1 + h) + 10 * ((2 + t) % 10) + (7 + u) % 10)

/-- R138: for every accepted request the sum fits a byte and the checksum byte is 255 less the sum, between 6 and 155; the
bounds of the sum are reached. -/
def Obligations.PercentSumFitsByte : Prop :=
  (∀ (s : State) (data : BitVec 16), data.toNat < 2 ^ 15 → ∃ ip nc t,
    ip = data.toNat / 256 ∧ nc = cla10 [127, ip] ∧ (percentNcSum (percentIp data)).toNat = nc ∧
    exec (.percent true data) s = .next t ∧
    ip ≤ 127 ∧ 100 ≤ nc ∧ nc ≤ 249 ∧ (ip ≤ 100 → nc ≤ 227) ∧ nc % 256 = nc ∧
    t.rB3.toNat = 255 - nc ∧ 6 ≤ t.rB3.toNat ∧ t.rB3.toNat ≤ 155) ∧
  cla10 [127, 122] = 249 ∧ cla10 [127, 100] = 227

/-- R136: the checksum never depends on the fraction. -/
def Obligations.PercentChecksumIgnoresFraction : Prop :=
  ∀ (s : State) (data data' : BitVec 16), data.toNat < 2 ^ 15 → data.toNat / 256 = data'.toNat / 256 →
    ∃ t t', exec (.percent true data) s = .next t ∧ exec (.percent true data') s = .next t' ∧ t.rB3 = t'.rB3

/-- R139: the checksum covers the percentage, not the data byte; a checksum over the data byte would equal it exactly
when `q < 0.5`. -/
def Obligations.PercentChecksumIsNotOverDataByte : Prop :=
  ∀ (s : State) (data : BitVec 16), data.toNat < 2 ^ 15 → ∃ t, exec (.percent true data) s = .next t ∧
    (t.rB3 = not8 (cla10 [127, t.rB2.toNat]) ↔ data.toNat < 128) ∧ (data.toNat < 128 → t.rB3 = 0x80)

/-! ### The status request -/

/-- R150: one byte, whatever `cs` and `data`; every word from 0x0E0000 to 0x0FFFFF is one. -/
def Obligations.StatusRequestAnswersOneByte : Prop :=
  (∀ (s : State) (cs : Bool) (data : BitVec 16),
    exec (.statusRequest cs data) s = .next { s with
      rValid := true, rStatus := 0, rLen := 1, rB0 := 0x7E, rB1 := 0, rB2 := 0, rB3 := 0 }) ∧
  (∀ w : EWord, 0x0E0000 ≤ w.toNat → w.toNat ≤ 0x0FFFFF → ∃ cs data, decodeE w = .ok (.statusRequest cs data))

/-! ### The adder -/

/-- R63, R106: the sum, zero-extended to 17 bits without loss, for any operands; and the rule's corner cases. -/
def Obligations.AddncAnswersCarryLessSum : Prop :=
  (∀ (s : State) (op0 op1 : BitVec 16), ∃ t, exec (.addnc op0 op1) s = .next t ∧
    t = { s with sValid := true, sSum := BitVec.ofNat 17 (cla10 [op0.toNat, op1.toNat]) } ∧
    t.sSum.toNat = cla10 [op0.toNat, op1.toNat] ∧ t.sSum.toNat ≤ 99999 ∧
    exec (.addnc op1 op0) s = .next t ∧ (op0 = 0 → t.sSum.toNat = op1.toNat) ∧
    (op0 = op1 → ∀ p, 1 ≤ p → digit t.sSum.toNat p = 2 * digit op0.toNat p % 10)) ∧
  (∀ w : AWord, decode (.a w) = .ok (.addnc (BitVec.ofNat 16 (w.toNat / 2 ^ 16)) (BitVec.ofNat 16 (w.toNat % 2 ^ 16)))) ∧
  cla10 [0, 0] = 0 ∧ cla10 [65535, 65535] = 20060 ∧ cla10 [60000, 40000] = 0 ∧
  cla10 [60000, 39999] = 99999 ∧ cla10 [1, 19] = 10

/-- R90, R92 to R94: the decimal digit of the result at each position is the sum modulo 10 of the inputs' digits there. Of no
inputs the spec gives no sum (R100). -/
def Obligations.Cla10AddsEachDigitModuloTen : Prop :=
  ∀ (vs : List Nat) (p : Nat), vs ≠ [] → 1 ≤ p → digit (cla10 vs) p = (vs.map fun v => digit v p).sum % 10

/-- R91: the digit length is the least `n` with `v < 10^n`. -/
def Obligations.DigitLengthIsLeastPower : Prop :=
  ∀ v, 1 ≤ v → v < 10 ^ len10 v ∧ ∀ n, v < 10 ^ n → len10 v ≤ n

/-- R92: the digit of `v` at position `p` is below 10, is 0 beyond the digits of `v`, and the digits rebuild `v`. -/
def Obligations.DigitExtraction : Prop :=
  ∀ v p, 1 ≤ p → digit v p = v % 10 ^ p / 10 ^ (p - 1) ∧ digit v p ≤ 9 ∧ (len10 v < p → digit v p = 0) ∧
    v = ((List.range (len10 v)).map fun i => digit v (i + 1) * 10 ^ i).sum

/-- R93: the positional sum over the inputs that have the position is the sum over every input, and at most `9n`. -/
def Obligations.PositionalSumOverEveryInput : Prop :=
  ∀ (vs : List Nat) (p : Nat), 1 ≤ p →
    posSum vs p = (vs.map fun v => digit v p).sum ∧ posSum vs p ≤ 9 * vs.length

/-- R97: the result never has more digits than the longest input; two 16-bit operands give at most 99999, reached. -/
def Obligations.Cla10RangeBound : Prop :=
  (∀ vs : List Nat, vs ≠ [] → cla10 vs ≤ 10 ^ maxLen10 vs - 1) ∧
  (∀ a b : Nat, a < 2 ^ 16 → b < 2 ^ 16 → cla10 [a, b] ≤ 99999) ∧ cla10 [60000, 39999] = 99999

/-- R98, R99: zero is the identity, and a single value is its own sum. -/
def Obligations.Cla10ZeroAndSingleInput : Prop :=
  ∀ v, cla10 [0, v] = v ∧ cla10 [v, 0] = v ∧ cla10 [v] = v ∧ cla10 [0, 0] = 0

/-- R103: closed on the values below `10^L`, and laws (a) to (f). -/
def Obligations.Cla10GroupLaws : Prop :=
  (∀ L a b, a < 10 ^ L → b < 10 ^ L → cla10 [a, b] < 10 ^ L) ∧
  (∀ vs ws : List Nat, vs.Perm ws → cla10 vs = cla10 ws) ∧
  (∀ a b c, cla10 [a, cla10 [b, c]] = cla10 [a, b, c] ∧ cla10 [cla10 [a, b], c] = cla10 [a, b, c]) ∧
  (∀ a, cla10 [0, a] = a) ∧
  (∀ a, ∃ b, b < 10 ^ len10 a ∧
    (∀ p, 1 ≤ p → p ≤ len10 a → digit b p = (10 - digit a p) % 10) ∧ cla10 [a, b] = 0) ∧
  cla10 [123, 987] = 0 ∧
  (∀ a, cla10 (List.replicate 10 a) = 0) ∧
  (∀ a b, cla10 [a, b] = a + b ↔ ∀ p, 1 ≤ p → digit a p + digit b p ≤ 9)

/-- R104: the difference from the ordinary sum is what the positions overflow by, so it is not zero when one does. -/
def Obligations.Cla10DiffersFromSumByDroppedCarries : Prop :=
  ∀ vs : List Nat, vs ≠ [] →
    vs.sum = cla10 vs + ((List.range (maxLen10 vs)).map fun i => posSum vs (i + 1) / 10 * 10 ^ (i + 1)).sum ∧
    vs.sum = ((List.range (maxLen10 vs)).map fun i => posSum vs (i + 1) * 10 ^ i).sum ∧
    cla10 vs ≤ vs.sum ∧ 10 ∣ vs.sum - cla10 vs ∧ cla10 vs % 10 = vs.sum % 10 ∧
    ((∃ p, 1 ≤ p ∧ 10 ≤ posSum vs p) → cla10 vs ≠ vs.sum)

/-- R10: `not8` is 255 less the value modulo 256, and of a byte it is the byte with every bit inverted. -/
def Obligations.Not8IsOnesComplement : Prop :=
  (∀ n : Nat, (not8 n).toNat = 255 - n % 256) ∧ (∀ b : Byte, (not8 b.toNat).toNat = 255 - b.toNat ∧ not8 b.toNat = ~~~ b)

/-! ### Errors and frames -/

/-- R163, R165, R166: the whole effect of an error is the response: the code, length 0, lanes 0; nothing is saved, no byte
is sent, and the A port answers as it would. That the step takes one presentation off the host's list is the model's
choice (log 3). -/
def Obligations.ErrorEntryIsTheResponse : Prop :=
  ∀ s e, s.nextPresentation.eValid = true → decodeE s.nextPresentation.e = .error e → ∃ t, step s = .next t ∧
    t.rValid = true ∧ t.rStatus = (match e with | .unrecognizedCommand => 1 | .invalidData => 2) ∧ t.rLen = 0 ∧
    t.rB0 = 0 ∧ t.rB1 = 0 ∧ t.rB2 = 0 ∧ t.rB3 = 0 ∧
    t.sValid = s.nextPresentation.aValid ∧ t.sSum = (if t.sValid then adderPort s.nextPresentation.a else 0) ∧
    t.rom = s.rom ∧ t.txlog = s.txlog ∧ t.pending = s.pending.tail

/-- R160, R168: the A port raises no error: whatever it is given, the response wires of the E port stay. -/
def Obligations.AdderChangesOnlySum : Prop :=
  ∀ (s : State) (op0 op1 : BitVec 16) (t : State), exec (.addnc op0 op1) s = .next t → SameButSum s t ∧ t.sValid = true

/-- R20 to R23, R41, R166: an encoder operation changes the response wires and nothing else: no input wire, no output of
the A port, no byte of the ROM. -/
def Obligations.EncoderInstrChangesOnlyResponse : Prop :=
  ∀ (i : Instr) (s t : State), i.onEPort = true → exec i s = .next t → SameButResponse s t ∧ t.rValid = true

/-! ### The host's form of a request -/

/-- R69, R80 with R110, R130 to R136, R150, R161, R162: for every source-level request and every word that stands for it,
the port answers what the source's `encode` gives. The form of a source-level value is the model's choice (log 15,
DESIGN CHOICE). -/
def Obligations.PortRefinesSourceEncode : Prop :=
  ∀ (rom : Memory) (r : SourceRequest) (w : EWord), codes r w → sourceEncode rom r = some (encoderPort rom w)

/-- R69: every request but a percent whose value is no number in [0, 256) has a word. The form of a source-level value is
the model's choice (log 15, DESIGN CHOICE). -/
def Obligations.EveryPresentableRequestHasWord : Prop :=
  ∀ r : SourceRequest,
    (r.command = "percent" → ∃ n m, r.data = .number n m ∧ n < 256 * (m + 1)) → ∃ w, codes r w
end

