-- ==== Sys2Proof/Laws/Decimal.lean ====
section
/-! SUPPORT. The small lemmas of the decimal functions (spec/40_adder.md R91 to R96) and of `not8` (spec/00_scope.md R10). -/

namespace Sys2Proof.Machine

/-! ### `len10` -/

theorem len10Fuel_eq (n m v : Nat) (hn : v ≤ n) (hm : v ≤ m) : len10Fuel n v = len10Fuel m v := by
  induction n generalizing m v with
  | zero => obtain rfl : v = 0 := by omega
            cases m <;> simp [len10Fuel]
  | succ n ih =>
    cases m with
    | zero => obtain rfl : v = 0 := by omega
              simp [len10Fuel]
    | succ m =>
      simp only [len10Fuel]
      split
      · rfl
      · rw [ih m (v / 10) (by omega) (by omega)]

@[simp] theorem len10_zero : len10 0 = 0 := rfl

/-- One digit more than the value without its last digit. -/
theorem len10_of_ne_zero {v : Nat} (h : v ≠ 0) : len10 v = 1 + len10 (v / 10) := by
  cases v with
  | zero => exact absurd rfl h
  | succ n =>
    rw [len10, len10Fuel, if_neg h]
    exact congrArg _ (len10Fuel_eq _ _ _ (by omega) (le_refl _))

/-! ### `digit` -/

/-- The extraction formula of R92 with the divisions in the other order. -/
theorem digit_succ (v p : Nat) : digit v (p + 1) = v / 10 ^ p % 10 := by
  rw [digit, Nat.add_sub_cancel, pow_succ, Nat.mod_mul_right_div_self]

@[simp] theorem digit_zero_left (p : Nat) : digit 0 p = 0 := by simp [digit]

/-! ### `posSum`, `accumulate`, `cla10` -/

@[simp] theorem maxLen10_nil : maxLen10 [] = 0 := rfl

@[simp] theorem maxLen10_cons (v : Nat) (vs : List Nat) : maxLen10 (v :: vs) = max (len10 v) (maxLen10 vs) := rfl

theorem len10_le_maxLen10 {v : Nat} {vs : List Nat} (h : v ∈ vs) : len10 v ≤ maxLen10 vs := by
  induction vs with
  | nil => cases h
  | cons w ws ih =>
    rw [maxLen10_cons]
    rcases List.mem_cons.1 h with rfl | h
    · exact le_max_left _ _
    · exact (ih h).trans (le_max_right _ _)

@[simp] theorem accumulate_zero (vs : List Nat) : accumulate vs 0 = 0 := rfl

theorem accumulate_succ (vs : List Nat) (n : Nat) :
    accumulate vs (n + 1) = accumulate vs n + posSum vs (n + 1) % 10 * 10 ^ n := rfl

/-- No carry leaves the positions accumulated so far (R94, R95). -/
theorem accumulate_lt (vs : List Nat) (n : Nat) : accumulate vs n < 10 ^ n := by
  induction n with
  | zero => simp
  | succ n ih =>
    have h : posSum vs (n + 1) % 10 ≤ 9 := by omega
    have := Nat.mul_le_mul_right (10 ^ n) h
    rw [accumulate_succ, pow_succ]
    omega

theorem cla10_nil : cla10 [] = 0 := rfl

/-! ### `not8` -/

theorem not8_toNat (b : Nat) : (not8 b).toNat = 255 - b % 256 := by
  rw [not8, BitVec.toNat_ofNat]
  omega

end Sys2Proof.Machine
end

