-- ==== Sys2Proof/Laws/Decode.lean ====
section
/-! SUPPORT. The fields of a word as numbers, and the tables of the decoder, each said once. -/

namespace Sys2Proof

/-! ### Fields of a word -/

theorem toNat_append_eq {m n : Nat} (x : BitVec m) (y : BitVec n) : (x ++ y).toNat = x.toNat * 2 ^ n + y.toNat := by
  rw [BitVec.toNat_append, ← Nat.shiftLeft_add_eq_or_of_lt y.isLt, Nat.shiftLeft_eq]

theorem eWordOf_toNat (cmd : BitVec 4) (cs : Bool) (data : BitVec 16) :
    (eWordOf cmd cs data).toNat = cmd.toNat * 2 ^ 17 + cs.toNat * 2 ^ 16 + data.toNat := by
  have h : (eWordOf cmd cs data).toNat = (cmd ++ BitVec.ofBool cs).toNat * 2 ^ 16 + data.toNat :=
    toNat_append_eq (cmd ++ BitVec.ofBool cs) data
  rw [h, toNat_append_eq]
  cases cs <;> simp <;> omega

theorem wordCmd_toNat (w : EWord) : (wordCmd w).toNat = w.toNat / 2 ^ 17 := by
  simp only [wordCmd, BitVec.extractLsb'_toNat, Nat.shiftRight_eq_div_pow]
  omega

theorem wordCs_toNat (w : EWord) : (wordCs w).toNat = w.toNat / 2 ^ 16 % 2 := by
  simp only [wordCs, BitVec.getLsbD, Nat.testBit_eq_decide_div_mod_eq]
  rcases Nat.mod_two_eq_zero_or_one (w.toNat / 2 ^ 16) with h | h <;> rw [h] <;> rfl

theorem wordData_toNat (w : EWord) : (wordData w).toNat = w.toNat % 2 ^ 16 := by
  simp [wordData]

theorem toNat_bool_inj {a b : Bool} (h : a.toNat = b.toNat) : a = b := by
  cases a <;> cases b <;> simp_all

@[simp] theorem wordCmd_eWordOf (cmd : BitVec 4) (cs : Bool) (data : BitVec 16) : wordCmd (eWordOf cmd cs data) = cmd := by
  apply BitVec.eq_of_toNat_eq
  have := data.isLt
  have := cs.toNat_lt
  rw [wordCmd_toNat, eWordOf_toNat]
  omega

@[simp] theorem wordCs_eWordOf (cmd : BitVec 4) (cs : Bool) (data : BitVec 16) : wordCs (eWordOf cmd cs data) = cs := by
  apply toNat_bool_inj
  have := data.isLt
  have := cs.toNat_lt
  rw [wordCs_toNat, eWordOf_toNat]
  omega

@[simp] theorem wordData_eWordOf (cmd : BitVec 4) (cs : Bool) (data : BitVec 16) :
    wordData (eWordOf cmd cs data) = data := by
  apply BitVec.eq_of_toNat_eq
  have := data.isLt
  rw [wordData_toNat, eWordOf_toNat]
  omega

/-- A word is its three fields: there are no reserved bits (R60). -/
@[simp] theorem eWordOf_fields (w : EWord) : eWordOf (wordCmd w) (wordCs w) (wordData w) = w := by
  apply BitVec.eq_of_toNat_eq
  rw [eWordOf_toNat, wordCmd_toNat, wordCs_toNat, wordData_toNat]
  omega

theorem eWordOf_inj {cmd cmd' : BitVec 4} {cs cs' : Bool} {data data' : BitVec 16}
    (h : eWordOf cmd cs data = eWordOf cmd' cs' data') : cmd = cmd' ∧ cs = cs' ∧ data = data' := by
  refine ⟨?_, ?_, ?_⟩
  · simpa using congrArg wordCmd h
  · simpa using congrArg wordCs h
  · simpa using congrArg wordData h

/-- AND acts field by field. -/
theorem eWordOf_and (cmd cmd' : BitVec 4) (cs cs' : Bool) (data data' : BitVec 16) :
    eWordOf cmd cs data &&& eWordOf cmd' cs' data' = eWordOf (cmd &&& cmd') (cs && cs') (data &&& data') := by
  unfold eWordOf
  rw [BitVec.and_append (x₁ := cmd ++ BitVec.ofBool cs) (y₁ := data),
    BitVec.and_append (x₁ := cmd) (y₁ := BitVec.ofBool cs)]
  cases cs <;> cases cs' <;> rfl

theorem aWordOf_toNat (op0 op1 : BitVec 16) : (aWordOf op0 op1).toNat = op0.toNat * 2 ^ 16 + op1.toNat :=
  toNat_append_eq op0 op1

theorem wordOp0_toNat (w : AWord) : (wordOp0 w).toNat = w.toNat / 2 ^ 16 := by
  simp only [wordOp0, BitVec.extractLsb'_toNat, Nat.shiftRight_eq_div_pow]
  omega

theorem wordOp1_toNat (w : AWord) : (wordOp1 w).toNat = w.toNat % 2 ^ 16 := by
  simp [wordOp1]

@[simp] theorem wordOp0_aWordOf (op0 op1 : BitVec 16) : wordOp0 (aWordOf op0 op1) = op0 := by
  apply BitVec.eq_of_toNat_eq
  have := op1.isLt
  rw [wordOp0_toNat, aWordOf_toNat]
  omega

@[simp] theorem wordOp1_aWordOf (op0 op1 : BitVec 16) : wordOp1 (aWordOf op0 op1) = op1 := by
  apply BitVec.eq_of_toNat_eq
  have := op1.isLt
  rw [wordOp1_toNat, aWordOf_toNat]
  omega

@[simp] theorem aWordOf_fields (w : AWord) : aWordOf (wordOp0 w) (wordOp1 w) = w := by
  apply BitVec.eq_of_toNat_eq
  rw [aWordOf_toNat, wordOp0_toNat, wordOp1_toNat]
  omega

/-! ### Families, keys and shapes -/

@[simp] theorem shapeOf_cmd (f : Family) : shapeOf f.cmd = .catalog f := by cases f <;> rfl

theorem shapeOf_catalog {cmd : BitVec 4} {f : Family} (h : shapeOf cmd = .catalog f) : cmd = f.cmd := by
  revert cmd; cases f <;> decide

theorem shapeOf_percent {cmd : BitVec 4} : shapeOf cmd = .percent ↔ cmd = 6 := by revert cmd; decide

theorem shapeOf_status {cmd : BitVec 4} : shapeOf cmd = .status ↔ cmd = 7 := by revert cmd; decide

theorem shapeOf_bad {cmd : BitVec 4} : shapeOf cmd = .bad ↔ 8 ≤ cmd.toNat := by revert cmd; decide

/-- The code of a key selects that key in its family (R65). -/
@[simp] theorem keyOf_code (k : Key) : k.family.keyOf k.code = some k := by cases k <;> rfl

/-- A data code that selects a key is that key's code, in that key's family (R65). -/
theorem keyOf_eq_some {f : Family} {data : BitVec 16} {k : Key} (h : f.keyOf data = some k) :
    f = k.family ∧ data = k.code := by
  cases f <;> simp only [Family.keyOf] at h <;> split_ifs at h <;> cases h <;> exact ⟨rfl, ‹_›⟩

/-! ### The decoder, by shape -/

theorem decodeE_catalog {w : EWord} {f : Family} (h : shapeOf (wordCmd w) = .catalog f) :
    decodeE w = match f.keyOf (wordData w) with
      | some k => .ok (k.instr (wordCs w))
      | none => .error .invalidData := by
  simp only [decodeE, h] <;> rfl

theorem decodeE_percent {w : EWord} (h : shapeOf (wordCmd w) = .percent) :
    decodeE w =
      if (wordData w).getLsbD 15 then .error .invalidData else .ok (.percent (wordCs w) (wordData w)) := by
  simp only [decodeE, h]

theorem decodeE_status {w : EWord} (h : shapeOf (wordCmd w) = .status) :
    decodeE w = .ok (.statusRequest (wordCs w) (wordData w)) := by
  simp only [decodeE, h]

theorem decodeE_bad {w : EWord} (h : shapeOf (wordCmd w) = .bad) : decodeE w = .error .unrecognizedCommand := by
  simp only [decodeE, h]

/-- What a decoded E word can be: a catalog operation of a legal pair, a percent request with bit 15 clear, or a status
request; and the word is the operation's. -/
theorem decodeE_cases {w : EWord} {i : Instr} (h : decodeE w = .ok i) :
    (∃ k cs, i = Key.instr k cs ∧ w = eWordOf k.family.cmd cs k.code) ∨
    (∃ cs data, i = .percent cs data ∧ data.getLsbD 15 = false ∧ w = eWordOf 6 cs data) ∨
    (∃ cs data, i = .statusRequest cs data ∧ w = eWordOf 7 cs data) := by
  cases hs : shapeOf (wordCmd w) with
  | catalog f =>
    rw [decodeE_catalog hs] at h
    cases hk : f.keyOf (wordData w) with
    | none => simp [hk] at h
    | some k =>
      obtain ⟨rfl, hd⟩ := keyOf_eq_some hk
      simp only [hk, Except.ok.injEq] at h
      refine .inl ⟨k, wordCs w, h.symm, ?_⟩
      rw [← shapeOf_catalog hs, ← hd, eWordOf_fields]
  | percent =>
    rw [decodeE_percent hs] at h
    split at h
    · cases h
    · rename_i hb
      simp only [Except.ok.injEq] at h
      refine .inr (.inl ⟨wordCs w, wordData w, h.symm, by simpa using hb, ?_⟩)
      rw [← shapeOf_percent.1 hs, eWordOf_fields]
  | status =>
    rw [decodeE_status hs, Except.ok.injEq] at h
    refine .inr (.inr ⟨wordCs w, wordData w, h.symm, ?_⟩)
    rw [← shapeOf_status.1 hs, eWordOf_fields]
  | bad => simp [decodeE_bad hs] at h

theorem instr_onEPort (k : Key) (cs : Bool) : (k.instr cs).onEPort = true := by cases k <;> rfl

/-- An instruction decoded from an E word is one of the E port. -/
theorem decodeE_onEPort {w : EWord} {i : Instr} (h : decodeE w = .ok i) : i.onEPort = true := by
  obtain ⟨k, cs, rfl, -⟩ | ⟨cs, data, rfl, -, -⟩ | ⟨cs, data, rfl, -⟩ := decodeE_cases h
  · exact instr_onEPort k cs
  · rfl
  · rfl

end Sys2Proof
end

