-- ==== Sys2Proof/Laws/State.lean ====
section
/-! SUPPORT. One lemma per field per update of the state, true by rfl, so that no later proof unfolds a record update. -/

namespace Sys2Proof.Machine

variable (s : State)

/-! ### `State.respond` -/

@[simp] theorem State.respond_eValid (bytes : List Byte) : (s.respond bytes).eValid = s.eValid := rfl
@[simp] theorem State.respond_eCmd (bytes : List Byte) : (s.respond bytes).eCmd = s.eCmd := rfl
@[simp] theorem State.respond_eCs (bytes : List Byte) : (s.respond bytes).eCs = s.eCs := rfl
@[simp] theorem State.respond_eData (bytes : List Byte) : (s.respond bytes).eData = s.eData := rfl
@[simp] theorem State.respond_aValid (bytes : List Byte) : (s.respond bytes).aValid = s.aValid := rfl
@[simp] theorem State.respond_aOp0 (bytes : List Byte) : (s.respond bytes).aOp0 = s.aOp0 := rfl
@[simp] theorem State.respond_aOp1 (bytes : List Byte) : (s.respond bytes).aOp1 = s.aOp1 := rfl
@[simp] theorem State.respond_rValid (bytes : List Byte) : (s.respond bytes).rValid = true := rfl
@[simp] theorem State.respond_rStatus (bytes : List Byte) : (s.respond bytes).rStatus = statusOk := rfl
@[simp] theorem State.respond_rLen (bytes : List Byte) : (s.respond bytes).rLen = BitVec.ofNat 3 bytes.length := rfl
@[simp] theorem State.respond_rB0 (bytes : List Byte) : (s.respond bytes).rB0 = bytes.getD 0 0 := rfl
@[simp] theorem State.respond_rB1 (bytes : List Byte) : (s.respond bytes).rB1 = bytes.getD 1 0 := rfl
@[simp] theorem State.respond_rB2 (bytes : List Byte) : (s.respond bytes).rB2 = bytes.getD 2 0 := rfl
@[simp] theorem State.respond_rB3 (bytes : List Byte) : (s.respond bytes).rB3 = bytes.getD 3 0 := rfl
@[simp] theorem State.respond_sValid (bytes : List Byte) : (s.respond bytes).sValid = s.sValid := rfl
@[simp] theorem State.respond_sSum (bytes : List Byte) : (s.respond bytes).sSum = s.sSum := rfl
@[simp] theorem State.respond_rom (bytes : List Byte) : (s.respond bytes).rom = s.rom := rfl
@[simp] theorem State.respond_pending (bytes : List Byte) : (s.respond bytes).pending = s.pending := rfl
@[simp] theorem State.respond_txlog (bytes : List Byte) : (s.respond bytes).txlog = s.txlog := rfl

/-! ### `State.raise` -/

@[simp] theorem State.raise_eValid (e : ErrorKind) : (s.raise e).eValid = s.eValid := rfl
@[simp] theorem State.raise_eCmd (e : ErrorKind) : (s.raise e).eCmd = s.eCmd := rfl
@[simp] theorem State.raise_eCs (e : ErrorKind) : (s.raise e).eCs = s.eCs := rfl
@[simp] theorem State.raise_eData (e : ErrorKind) : (s.raise e).eData = s.eData := rfl
@[simp] theorem State.raise_aValid (e : ErrorKind) : (s.raise e).aValid = s.aValid := rfl
@[simp] theorem State.raise_aOp0 (e : ErrorKind) : (s.raise e).aOp0 = s.aOp0 := rfl
@[simp] theorem State.raise_aOp1 (e : ErrorKind) : (s.raise e).aOp1 = s.aOp1 := rfl
@[simp] theorem State.raise_rValid (e : ErrorKind) : (s.raise e).rValid = true := rfl
@[simp] theorem State.raise_rStatus (e : ErrorKind) : (s.raise e).rStatus = statusOf e := rfl
@[simp] theorem State.raise_rLen (e : ErrorKind) : (s.raise e).rLen = 0 := rfl
@[simp] theorem State.raise_rB0 (e : ErrorKind) : (s.raise e).rB0 = 0 := rfl
@[simp] theorem State.raise_rB1 (e : ErrorKind) : (s.raise e).rB1 = 0 := rfl
@[simp] theorem State.raise_rB2 (e : ErrorKind) : (s.raise e).rB2 = 0 := rfl
@[simp] theorem State.raise_rB3 (e : ErrorKind) : (s.raise e).rB3 = 0 := rfl
@[simp] theorem State.raise_sValid (e : ErrorKind) : (s.raise e).sValid = s.sValid := rfl
@[simp] theorem State.raise_sSum (e : ErrorKind) : (s.raise e).sSum = s.sSum := rfl
@[simp] theorem State.raise_rom (e : ErrorKind) : (s.raise e).rom = s.rom := rfl
@[simp] theorem State.raise_pending (e : ErrorKind) : (s.raise e).pending = s.pending := rfl
@[simp] theorem State.raise_txlog (e : ErrorKind) : (s.raise e).txlog = s.txlog := rfl

/-! ### `State.idleE` -/

@[simp] theorem State.idleE_eValid : s.idleE.eValid = s.eValid := rfl
@[simp] theorem State.idleE_eCmd : s.idleE.eCmd = s.eCmd := rfl
@[simp] theorem State.idleE_eCs : s.idleE.eCs = s.eCs := rfl
@[simp] theorem State.idleE_eData : s.idleE.eData = s.eData := rfl
@[simp] theorem State.idleE_aValid : s.idleE.aValid = s.aValid := rfl
@[simp] theorem State.idleE_aOp0 : s.idleE.aOp0 = s.aOp0 := rfl
@[simp] theorem State.idleE_aOp1 : s.idleE.aOp1 = s.aOp1 := rfl
@[simp] theorem State.idleE_rValid : s.idleE.rValid = false := rfl
@[simp] theorem State.idleE_rStatus : s.idleE.rStatus = 0 := rfl
@[simp] theorem State.idleE_rLen : s.idleE.rLen = 0 := rfl
@[simp] theorem State.idleE_rB0 : s.idleE.rB0 = 0 := rfl
@[simp] theorem State.idleE_rB1 : s.idleE.rB1 = 0 := rfl
@[simp] theorem State.idleE_rB2 : s.idleE.rB2 = 0 := rfl
@[simp] theorem State.idleE_rB3 : s.idleE.rB3 = 0 := rfl
@[simp] theorem State.idleE_sValid : s.idleE.sValid = s.sValid := rfl
@[simp] theorem State.idleE_sSum : s.idleE.sSum = s.sSum := rfl
@[simp] theorem State.idleE_rom : s.idleE.rom = s.rom := rfl
@[simp] theorem State.idleE_pending : s.idleE.pending = s.pending := rfl
@[simp] theorem State.idleE_txlog : s.idleE.txlog = s.txlog := rfl

/-! ### `State.answerSum` -/

@[simp] theorem State.answerSum_eValid (sum : SWord) : (s.answerSum sum).eValid = s.eValid := rfl
@[simp] theorem State.answerSum_eCmd (sum : SWord) : (s.answerSum sum).eCmd = s.eCmd := rfl
@[simp] theorem State.answerSum_eCs (sum : SWord) : (s.answerSum sum).eCs = s.eCs := rfl
@[simp] theorem State.answerSum_eData (sum : SWord) : (s.answerSum sum).eData = s.eData := rfl
@[simp] theorem State.answerSum_aValid (sum : SWord) : (s.answerSum sum).aValid = s.aValid := rfl
@[simp] theorem State.answerSum_aOp0 (sum : SWord) : (s.answerSum sum).aOp0 = s.aOp0 := rfl
@[simp] theorem State.answerSum_aOp1 (sum : SWord) : (s.answerSum sum).aOp1 = s.aOp1 := rfl
@[simp] theorem State.answerSum_rValid (sum : SWord) : (s.answerSum sum).rValid = s.rValid := rfl
@[simp] theorem State.answerSum_rStatus (sum : SWord) : (s.answerSum sum).rStatus = s.rStatus := rfl
@[simp] theorem State.answerSum_rLen (sum : SWord) : (s.answerSum sum).rLen = s.rLen := rfl
@[simp] theorem State.answerSum_rB0 (sum : SWord) : (s.answerSum sum).rB0 = s.rB0 := rfl
@[simp] theorem State.answerSum_rB1 (sum : SWord) : (s.answerSum sum).rB1 = s.rB1 := rfl
@[simp] theorem State.answerSum_rB2 (sum : SWord) : (s.answerSum sum).rB2 = s.rB2 := rfl
@[simp] theorem State.answerSum_rB3 (sum : SWord) : (s.answerSum sum).rB3 = s.rB3 := rfl
@[simp] theorem State.answerSum_sValid (sum : SWord) : (s.answerSum sum).sValid = true := rfl
@[simp] theorem State.answerSum_sSum (sum : SWord) : (s.answerSum sum).sSum = sum := rfl
@[simp] theorem State.answerSum_rom (sum : SWord) : (s.answerSum sum).rom = s.rom := rfl
@[simp] theorem State.answerSum_pending (sum : SWord) : (s.answerSum sum).pending = s.pending := rfl
@[simp] theorem State.answerSum_txlog (sum : SWord) : (s.answerSum sum).txlog = s.txlog := rfl

/-! ### `State.idleA` -/

@[simp] theorem State.idleA_eValid : s.idleA.eValid = s.eValid := rfl
@[simp] theorem State.idleA_eCmd : s.idleA.eCmd = s.eCmd := rfl
@[simp] theorem State.idleA_eCs : s.idleA.eCs = s.eCs := rfl
@[simp] theorem State.idleA_eData : s.idleA.eData = s.eData := rfl
@[simp] theorem State.idleA_aValid : s.idleA.aValid = s.aValid := rfl
@[simp] theorem State.idleA_aOp0 : s.idleA.aOp0 = s.aOp0 := rfl
@[simp] theorem State.idleA_aOp1 : s.idleA.aOp1 = s.aOp1 := rfl
@[simp] theorem State.idleA_rValid : s.idleA.rValid = s.rValid := rfl
@[simp] theorem State.idleA_rStatus : s.idleA.rStatus = s.rStatus := rfl
@[simp] theorem State.idleA_rLen : s.idleA.rLen = s.rLen := rfl
@[simp] theorem State.idleA_rB0 : s.idleA.rB0 = s.rB0 := rfl
@[simp] theorem State.idleA_rB1 : s.idleA.rB1 = s.rB1 := rfl
@[simp] theorem State.idleA_rB2 : s.idleA.rB2 = s.rB2 := rfl
@[simp] theorem State.idleA_rB3 : s.idleA.rB3 = s.rB3 := rfl
@[simp] theorem State.idleA_sValid : s.idleA.sValid = false := rfl
@[simp] theorem State.idleA_sSum : s.idleA.sSum = 0 := rfl
@[simp] theorem State.idleA_rom : s.idleA.rom = s.rom := rfl
@[simp] theorem State.idleA_pending : s.idleA.pending = s.pending := rfl
@[simp] theorem State.idleA_txlog : s.idleA.txlog = s.txlog := rfl

/-! ### `State.drive` -/

@[simp] theorem State.drive_eValid (p : Presentation) : (s.drive p).eValid = p.eValid := rfl
@[simp] theorem State.drive_eCmd (p : Presentation) : (s.drive p).eCmd = wordCmd p.e := rfl
@[simp] theorem State.drive_eCs (p : Presentation) : (s.drive p).eCs = wordCs p.e := rfl
@[simp] theorem State.drive_eData (p : Presentation) : (s.drive p).eData = wordData p.e := rfl
@[simp] theorem State.drive_aValid (p : Presentation) : (s.drive p).aValid = p.aValid := rfl
@[simp] theorem State.drive_aOp0 (p : Presentation) : (s.drive p).aOp0 = wordOp0 p.a := rfl
@[simp] theorem State.drive_aOp1 (p : Presentation) : (s.drive p).aOp1 = wordOp1 p.a := rfl
@[simp] theorem State.drive_rValid (p : Presentation) : (s.drive p).rValid = s.rValid := rfl
@[simp] theorem State.drive_rStatus (p : Presentation) : (s.drive p).rStatus = s.rStatus := rfl
@[simp] theorem State.drive_rLen (p : Presentation) : (s.drive p).rLen = s.rLen := rfl
@[simp] theorem State.drive_rB0 (p : Presentation) : (s.drive p).rB0 = s.rB0 := rfl
@[simp] theorem State.drive_rB1 (p : Presentation) : (s.drive p).rB1 = s.rB1 := rfl
@[simp] theorem State.drive_rB2 (p : Presentation) : (s.drive p).rB2 = s.rB2 := rfl
@[simp] theorem State.drive_rB3 (p : Presentation) : (s.drive p).rB3 = s.rB3 := rfl
@[simp] theorem State.drive_sValid (p : Presentation) : (s.drive p).sValid = s.sValid := rfl
@[simp] theorem State.drive_sSum (p : Presentation) : (s.drive p).sSum = s.sSum := rfl
@[simp] theorem State.drive_rom (p : Presentation) : (s.drive p).rom = s.rom := rfl
@[simp] theorem State.drive_pending (p : Presentation) : (s.drive p).pending = s.pending := rfl
@[simp] theorem State.drive_txlog (p : Presentation) : (s.drive p).txlog = s.txlog := rfl

/-! ### `State.present` -/

@[simp] theorem State.present_eValid : s.present.eValid = s.nextPresentation.eValid := rfl
@[simp] theorem State.present_eCmd : s.present.eCmd = wordCmd s.nextPresentation.e := rfl
@[simp] theorem State.present_eCs : s.present.eCs = wordCs s.nextPresentation.e := rfl
@[simp] theorem State.present_eData : s.present.eData = wordData s.nextPresentation.e := rfl
@[simp] theorem State.present_aValid : s.present.aValid = s.nextPresentation.aValid := rfl
@[simp] theorem State.present_aOp0 : s.present.aOp0 = wordOp0 s.nextPresentation.a := rfl
@[simp] theorem State.present_aOp1 : s.present.aOp1 = wordOp1 s.nextPresentation.a := rfl
@[simp] theorem State.present_rValid : s.present.rValid = s.rValid := rfl
@[simp] theorem State.present_rStatus : s.present.rStatus = s.rStatus := rfl
@[simp] theorem State.present_rLen : s.present.rLen = s.rLen := rfl
@[simp] theorem State.present_rB0 : s.present.rB0 = s.rB0 := rfl
@[simp] theorem State.present_rB1 : s.present.rB1 = s.rB1 := rfl
@[simp] theorem State.present_rB2 : s.present.rB2 = s.rB2 := rfl
@[simp] theorem State.present_rB3 : s.present.rB3 = s.rB3 := rfl
@[simp] theorem State.present_sValid : s.present.sValid = s.sValid := rfl
@[simp] theorem State.present_sSum : s.present.sSum = s.sSum := rfl
@[simp] theorem State.present_rom : s.present.rom = s.rom := rfl
@[simp] theorem State.present_pending : s.present.pending = s.pending.tail := rfl
@[simp] theorem State.present_txlog : s.present.txlog = s.txlog := rfl

/-! ### `State.record` -/

@[simp] theorem State.record_eValid : s.record.eValid = s.eValid := rfl
@[simp] theorem State.record_eCmd : s.record.eCmd = s.eCmd := rfl
@[simp] theorem State.record_eCs : s.record.eCs = s.eCs := rfl
@[simp] theorem State.record_eData : s.record.eData = s.eData := rfl
@[simp] theorem State.record_aValid : s.record.aValid = s.aValid := rfl
@[simp] theorem State.record_aOp0 : s.record.aOp0 = s.aOp0 := rfl
@[simp] theorem State.record_aOp1 : s.record.aOp1 = s.aOp1 := rfl
@[simp] theorem State.record_rValid : s.record.rValid = s.rValid := rfl
@[simp] theorem State.record_rStatus : s.record.rStatus = s.rStatus := rfl
@[simp] theorem State.record_rLen : s.record.rLen = s.rLen := rfl
@[simp] theorem State.record_rB0 : s.record.rB0 = s.rB0 := rfl
@[simp] theorem State.record_rB1 : s.record.rB1 = s.rB1 := rfl
@[simp] theorem State.record_rB2 : s.record.rB2 = s.rB2 := rfl
@[simp] theorem State.record_rB3 : s.record.rB3 = s.rB3 := rfl
@[simp] theorem State.record_sValid : s.record.sValid = s.sValid := rfl
@[simp] theorem State.record_sSum : s.record.sSum = s.sSum := rfl
@[simp] theorem State.record_rom : s.record.rom = s.rom := rfl
@[simp] theorem State.record_pending : s.record.pending = s.pending := rfl
@[simp] theorem State.record_txlog : s.record.txlog = s.txlog ++ s.sentBytes := rfl

/-! ### `State.placeWord` -/

@[simp] theorem State.placeWord_eValid (p : PortWord) : (s.placeWord p).eValid = s.eValid := rfl
@[simp] theorem State.placeWord_eCmd (p : PortWord) : (s.placeWord p).eCmd = s.eCmd := rfl
@[simp] theorem State.placeWord_eCs (p : PortWord) : (s.placeWord p).eCs = s.eCs := rfl
@[simp] theorem State.placeWord_eData (p : PortWord) : (s.placeWord p).eData = s.eData := rfl
@[simp] theorem State.placeWord_aValid (p : PortWord) : (s.placeWord p).aValid = s.aValid := rfl
@[simp] theorem State.placeWord_aOp0 (p : PortWord) : (s.placeWord p).aOp0 = s.aOp0 := rfl
@[simp] theorem State.placeWord_aOp1 (p : PortWord) : (s.placeWord p).aOp1 = s.aOp1 := rfl
@[simp] theorem State.placeWord_rValid (p : PortWord) : (s.placeWord p).rValid = s.rValid := rfl
@[simp] theorem State.placeWord_rStatus (p : PortWord) : (s.placeWord p).rStatus = s.rStatus := rfl
@[simp] theorem State.placeWord_rLen (p : PortWord) : (s.placeWord p).rLen = s.rLen := rfl
@[simp] theorem State.placeWord_rB0 (p : PortWord) : (s.placeWord p).rB0 = s.rB0 := rfl
@[simp] theorem State.placeWord_rB1 (p : PortWord) : (s.placeWord p).rB1 = s.rB1 := rfl
@[simp] theorem State.placeWord_rB2 (p : PortWord) : (s.placeWord p).rB2 = s.rB2 := rfl
@[simp] theorem State.placeWord_rB3 (p : PortWord) : (s.placeWord p).rB3 = s.rB3 := rfl
@[simp] theorem State.placeWord_sValid (p : PortWord) : (s.placeWord p).sValid = s.sValid := rfl
@[simp] theorem State.placeWord_sSum (p : PortWord) : (s.placeWord p).sSum = s.sSum := rfl
@[simp] theorem State.placeWord_rom (p : PortWord) : (s.placeWord p).rom = s.rom := rfl
@[simp] theorem State.placeWord_pending (p : PortWord) : (s.placeWord p).pending = Presentation.ofPortWord p :: s.pending := rfl
@[simp] theorem State.placeWord_txlog (p : PortWord) : (s.placeWord p).txlog = s.txlog := rfl

/-! ### `State.answer` -/

@[simp] theorem State.answer_ok (bytes : List Byte) : s.answer (.ok bytes) = s.respond bytes := rfl
@[simp] theorem State.answer_error (e : ErrorKind) : s.answer (.error e) = s.raise e := rfl

@[simp] theorem State.answer_eValid (r : Except ErrorKind (List Byte)) : (s.answer r).eValid = s.eValid := by cases r <;> rfl
@[simp] theorem State.answer_eCmd (r : Except ErrorKind (List Byte)) : (s.answer r).eCmd = s.eCmd := by cases r <;> rfl
@[simp] theorem State.answer_eCs (r : Except ErrorKind (List Byte)) : (s.answer r).eCs = s.eCs := by cases r <;> rfl
@[simp] theorem State.answer_eData (r : Except ErrorKind (List Byte)) : (s.answer r).eData = s.eData := by cases r <;> rfl
@[simp] theorem State.answer_aValid (r : Except ErrorKind (List Byte)) : (s.answer r).aValid = s.aValid := by cases r <;> rfl
@[simp] theorem State.answer_aOp0 (r : Except ErrorKind (List Byte)) : (s.answer r).aOp0 = s.aOp0 := by cases r <;> rfl
@[simp] theorem State.answer_aOp1 (r : Except ErrorKind (List Byte)) : (s.answer r).aOp1 = s.aOp1 := by cases r <;> rfl
@[simp] theorem State.answer_rValid (r : Except ErrorKind (List Byte)) : (s.answer r).rValid = true := by cases r <;> rfl
@[simp] theorem State.answer_sValid (r : Except ErrorKind (List Byte)) : (s.answer r).sValid = s.sValid := by cases r <;> rfl
@[simp] theorem State.answer_sSum (r : Except ErrorKind (List Byte)) : (s.answer r).sSum = s.sSum := by cases r <;> rfl
@[simp] theorem State.answer_rom (r : Except ErrorKind (List Byte)) : (s.answer r).rom = s.rom := by cases r <;> rfl
@[simp] theorem State.answer_pending (r : Except ErrorKind (List Byte)) : (s.answer r).pending = s.pending := by cases r <;> rfl
@[simp] theorem State.answer_txlog (r : Except ErrorKind (List Byte)) : (s.answer r).txlog = s.txlog := by cases r <;> rfl

/-! ### The words on the wires -/

theorem State.answer_rWord (r : Except ErrorKind (List Byte)) : (s.answer r).rWord = responseWord r := by
  cases r with
  | ok bytes => rfl
  | error e => cases e <;> simp only [State.answer_error, State.rWord, responseWord, State.raise] <;> decide

@[simp] theorem State.idleE_rWord : s.idleE.rWord = 0 := by simp only [State.rWord, State.idleE]; decide
@[simp] theorem State.placeWord_nextPresentation (p : PortWord) :
    (s.placeWord p).nextPresentation = Presentation.ofPortWord p := rfl

/-! ### Reset -/

theorem State.reset_rom_wf : Memory.wf State.reset.rom := by decide

end Sys2Proof.Machine
end

