-- ==== Sys2Proof/Laws/Ops.lean ====
section
/-! SUPPORT. What each shared operation can do, said once, for proofs to cite instead of unfolding: the ROM read, the three
commands, exec by port, one evaluation of a port, one step. -/

namespace Sys2Proof.Machine

/-! ### The ROM -/

@[simp] theorem Memory.read_nil (i : Fin 16) : Memory.read [] i = Config.cat i := rfl

theorem Memory.read_of_lookup {m : Memory} {i : Fin 16} {b : Byte} (h : m.lookup i.val = some b) : m.read i = b := by
  simp [Memory.read, h]

/-! ### The commands -/

/-- A catalog command with a legal code (R110). -/
theorem catalogCommand_code (rom : Memory) (k : Key) (cs : Bool) :
    catalogCommand rom k.family cs k.code =
      .ok ([Config.startByte, rom.read (romIndex k)] ++ if cs then [not8 (rom.read (romIndex k)).toNat] else []) := by
  simp only [catalogCommand, keyOf_code]
  cases cs <;> rfl

/-- A catalog command with an illegal code (R110). -/
theorem catalogCommand_illegal {rom : Memory} {f : Family} {cs : Bool} {data : BitVec 16} (h : f.keyOf data = none) :
    catalogCommand rom f cs data = .error .invalidData := by
  simp only [catalogCommand, h]

/-- A percent request of 128 or more (R133). -/
theorem percentCommand_out {cs : Bool} {data : BitVec 16} (h : data.getLsbD 15 = true) :
    percentCommand cs data = .error .invalidData := by
  simp only [percentCommand, h, if_true]

/-- A percent request below 128 (R130). -/
theorem percentCommand_in {cs : Bool} {data : BitVec 16} (h : data.getLsbD 15 = false) :
    percentCommand cs data =
      .ok ([Config.startByte, Config.setPercentByte, percentDataByte data] ++
        if cs then [not8 (percentNcSum (percentIp data)).toNat] else []) := by
  simp only [percentCommand, h, Bool.false_eq_true, if_false]
  cases cs <;> rfl

theorem statusCommand_eq (cs : Bool) (data : BitVec 16) : statusCommand cs data = .ok [Config.statusRequestByte] := by
  cases cs <;> rfl

/-! ### exec -/

theorem exec_catalog (k : Key) (cs : Bool) (s : State) :
    exec (k.instr cs) s = .next (s.answer (catalogCommand s.rom k.family cs k.code)) := by
  cases k <;> rfl

theorem exec_percent (cs : Bool) (data : BitVec 16) (s : State) :
    exec (.percent cs data) s = .next (s.answer (percentCommand cs data)) := rfl

theorem exec_statusRequest (cs : Bool) (data : BitVec 16) (s : State) :
    exec (.statusRequest cs data) s = .next (s.answer (statusCommand cs data)) := rfl

theorem exec_addnc (op0 op1 : BitVec 16) (s : State) :
    exec (.addnc op0 op1) s = .next (s.answerSum (addncSum op0 op1)) := rfl

/-- Everything an instruction can do: an operation of the E port answers, and ADDNC puts its sum on the A port. -/
theorem exec_cases {i : Instr} {s t : State} (h : exec i s = .next t) :
    (i.onEPort = true ∧ ∃ r, t = s.answer r) ∨ (∃ op0 op1, i = .addnc op0 op1 ∧ t = s.answerSum (addncSum op0 op1)) := by
  cases i <;> cases h <;> first | exact .inl ⟨rfl, _, rfl⟩ | exact .inr ⟨_, _, rfl, rfl⟩

/-! ### One evaluation -/

theorem andThen_next (s : State) (k : State → Host.Outcome State Fault Refusal) : andThen (.next s) k = k s := rfl

theorem andThen_eq_next {o : Host.Outcome State Fault Refusal} {k : State → Host.Outcome State Fault Refusal} {t : State}
    (h : andThen o k = .next t) : ∃ u, o = .next u ∧ k u = .next t := by
  cases o with
  | next u => exact ⟨u, rfl, h⟩
  | fault r => cases r
  | refused r => cases h

/-- The three things an evaluation of the E port can do (R30). -/
theorem evalE_cases {s t : State} (h : evalE s = .next t) :
    (s.eValid = false ∧ t = s.idleE) ∨
    (s.eValid = true ∧ ∃ i, decodeE s.eWord = .ok i ∧ exec i s = .next t) ∨
    (s.eValid = true ∧ ∃ e, decodeE s.eWord = .error e ∧ t = s.raise e) := by
  unfold evalE at h
  split at h
  · split at h
    · exact .inr (.inl ⟨‹_›, _, ‹_›, h⟩)
    · cases h
      exact .inr (.inr ⟨‹_›, _, ‹_›, rfl⟩)
  · cases h
    rename_i hv
    exact .inl ⟨by simpa using hv, rfl⟩

/-- An evaluation of the A port always answers (R30, R168). -/
theorem evalA_eq (s : State) :
    evalA s = .next (if s.aValid then s.answerSum (adderPort s.aWord) else s.idleA) := by
  unfold evalA
  split
  · exact exec_addnc _ _ s
  · rfl

@[simp] theorem State.present_eWord (s : State) : s.present.eWord = s.nextPresentation.e := eWordOf_fields _

@[simp] theorem State.present_aWord (s : State) : s.present.aWord = s.nextPresentation.a := aWordOf_fields _

/-! ### One step -/

/-- A step that answers went through an answer of the E port, then the A port's, then the host's record. -/
theorem step_cases {s t : State} (h : step s = .next t) :
    ∃ u, evalE s.present = .next u ∧
      t = (if u.aValid then u.answerSum (adderPort u.aWord) else u.idleA).record := by
  obtain ⟨v, hv, ht⟩ := andThen_eq_next h
  obtain ⟨u, hu, hv⟩ := andThen_eq_next hv
  rw [evalA_eq] at hv
  cases hv
  cases ht
  exact ⟨u, hu, rfl⟩

/-! ### The ROM is never written (R41): what keeps the canonical form -/

theorem exec_rom {i : Instr} {s t : State} (h : exec i s = .next t) : t.rom = s.rom := by
  obtain ⟨-, r, rfl⟩ | ⟨op0, op1, -, rfl⟩ := exec_cases h <;> simp

theorem exec_keeps_rom_wf {i : Instr} {s t : State} (h : exec i s = .next t) (hs : Memory.wf s.rom) : Memory.wf t.rom :=
  exec_rom h ▸ hs

end Sys2Proof.Machine
end

