-- ==== Sys2Proof/Laws/PerInstr.lean ====
section
/-! SUPPORT. Statements made per instruction, one lemma per constructor: the encoded word belongs to the instruction's own
row of the opcode table (spec/30_encoding.md R74). -/

namespace Sys2Proof.Laws.EncodeRow

/-- The instruction's word is on the E port and belongs to the row of its mnemonic, or, for ADDNC, is on the A port. -/
def Statement (i : Instr) : Prop :=
  match encode i with
  | .e w => i.wf = true → ∃ r ∈ opcodeRows, r.mnemonic = i.mnemonic ∧ r.matches w = true
  | .a _ => i.mnemonic = "ADDNC"

/-- A word whose masked fields are a row's pattern belongs to the row. -/
theorem matches_of_fields {cmd c : BitVec 4} {cs : Bool} {data d mask : BitVec 16} {m : String}
    (hc : cmd &&& 15 = c) (hd : data &&& mask = d) :
    OpcodeRow.matches ⟨m, eWordOf 15 false mask, eWordOf c false d⟩ (eWordOf cmd cs data) = true := by
  simp only [OpcodeRow.matches, beq_iff_eq, eWordOf_and, hc, hd, Bool.and_false]

theorem pwmFreq5 (cs : Bool) : Statement (.pwmFreq5 cs) := by
  cases cs <;> exact fun _ => by decide

theorem pwmFreq10 (cs : Bool) : Statement (.pwmFreq10 cs) := by
  cases cs <;> exact fun _ => by decide

theorem pwmFreq20 (cs : Bool) : Statement (.pwmFreq20 cs) := by
  cases cs <;> exact fun _ => by decide

theorem gateLogicUp (cs : Bool) : Statement (.gateLogicUp cs) := by
  cases cs <;> exact fun _ => by decide

theorem gateLogicDown (cs : Bool) : Statement (.gateLogicDown cs) := by
  cases cs <;> exact fun _ => by decide

theorem maxPwm95 (cs : Bool) : Statement (.maxPwm95 cs) := by
  cases cs <;> exact fun _ => by decide

theorem maxPwm99 (cs : Bool) : Statement (.maxPwm99 cs) := by
  cases cs <;> exact fun _ => by decide

theorem laseOnPowerUpFalse (cs : Bool) : Statement (.laseOnPowerUpFalse cs) := by
  cases cs <;> exact fun _ => by decide

theorem laseOnPowerUpTrue (cs : Bool) : Statement (.laseOnPowerUpTrue cs) := by
  cases cs <;> exact fun _ => by decide

theorem modeManual (cs : Bool) : Statement (.modeManual cs) := by
  cases cs <;> exact fun _ => by decide

theorem modeAnc (cs : Bool) : Statement (.modeAnc cs) := by
  cases cs <;> exact fun _ => by decide

theorem modeAnv (cs : Bool) : Statement (.modeAnv cs) := by
  cases cs <;> exact fun _ => by decide

theorem modeManClosed (cs : Bool) : Statement (.modeManClosed cs) := by
  cases cs <;> exact fun _ => by decide

theorem modeAnvClosed (cs : Bool) : Statement (.modeAnvClosed cs) := by
  cases cs <;> exact fun _ => by decide

theorem laseFalse (cs : Bool) : Statement (.laseFalse cs) := by
  cases cs <;> exact fun _ => by decide

theorem laseTrue (cs : Bool) : Statement (.laseTrue cs) := by
  cases cs <;> exact fun _ => by decide

theorem percent (cs : Bool) (data : BitVec 16) : Statement (.percent cs data) := by
  intro h
  refine ⟨⟨"PERCENT", 0x1E8000, 0x0C0000⟩, by decide, rfl, matches_of_fields (mask := 0x8000) (d := 0) rfl ?_⟩
  have hb : data.getLsbD 15 = false := by simpa only [Instr.wf, Bool.not_eq_true'] using h
  have hm : ∀ i : Fin 16, i.val ≠ 15 → (0x8000 : BitVec 16)[i.val] = false := by decide
  ext i hi
  rw [BitVec.getElem_and]
  by_cases h15 : i = 15
  · subst h15
    rw [← BitVec.getLsbD_eq_getElem, hb]
    simp
  · rw [hm ⟨i, hi⟩ h15, Bool.and_false]
    simp

theorem statusRequest (cs : Bool) (data : BitVec 16) : Statement (.statusRequest cs data) := by
  intro _
  exact ⟨⟨"STATUS_REQUEST", 0x1E0000, 0x0E0000⟩, by decide, rfl,
    matches_of_fields (mask := 0) (d := 0) rfl (by simp)⟩

theorem addnc (op0 op1 : BitVec 16) : Statement (.addnc op0 op1) := rfl

end Sys2Proof.Laws.EncodeRow
end

