-- ==== Sys2Proof/Tests/Slice0.lean ====
section
/-! SUPPORT. Tests on fixed values, and for each statement with hypotheses a witness that meets them. Expected values come
from spec/95_test_vectors.md (tables S1 to S8, T1 to T7) and from the encodings of spec/opcode_table.json. -/

namespace Sys2Proof.Tests

open Sys2Proof.Machine

/-! ### A machine with a known catalog

PRESUMED: the bytes are the candidate table CAT_GK of spec/93_implementation_defined.md U1, "from general knowledge, not in
source"; only the tests use it. -/

/-- CAT_GK, in the order of spec/20_memory.md R40. -/
def romGK : Memory :=
  [(0, 0x77), (1, 0x78), (2, 0x79), (3, 0x7A), (4, 0x7B), (5, 0x7C), (6, 0x7D), (7, 0x31), (8, 0x30), (9, 0x70),
   (10, 0x71), (11, 0x72), (12, 0x73), (13, 0x74), (14, 0x76), (15, 0x75)]

/-- The machine at power-up with that catalog, about to be presented with one word. -/
def withWord (p : PortWord) : State := ({ State.reset with rom := romGK } : State).placeWord p

/-- A field of the next state, if there is one. -/
def nextField {α : Type} (f : State → α) : Host.Outcome State Fault Refusal → Option α
  | .next t => some (f t)
  | .fault _ => none
  | .refused _ => none

/-- The response word to one E word. -/
def respE (w : EWord) : Option RWord := nextField State.rWord (step (withWord (.e w)))

/-- The sum for one A word. -/
def respA (w : AWord) : Option SWord := nextField State.sSum (step (withWord (.a w)))

/-! ### Well-formedness: the one check, and an ill-formed term it refuses -/

theorem test_wf_percent_bit15_refused : (Instr.percent true 0x8000).wf = false := by decide
theorem test_wf_percent_below_128 : (Instr.percent true 0x7FFF).wf = true := by decide

/-! ### Decoding: every row by a word written out from its encoding -/

theorem test_decode_pwmFreq5 : decode (.e 0b000010000000000000101) = .ok (.pwmFreq5 true) := by decide
theorem test_decode_pwmFreq10 : decode (.e 0b000010000000000001010) = .ok (.pwmFreq10 true) := by decide
theorem test_decode_pwmFreq20 : decode (.e 0b000010000000000010100) = .ok (.pwmFreq20 true) := by decide
theorem test_decode_gateLogicUp : decode (.e 0b000110000000000000000) = .ok (.gateLogicUp true) := by decide
theorem test_decode_gateLogicDown : decode (.e 0b000110000000000000001) = .ok (.gateLogicDown true) := by decide
theorem test_decode_maxPwm95 : decode (.e 0b001010000000001011111) = .ok (.maxPwm95 true) := by decide
theorem test_decode_maxPwm99 : decode (.e 0b001010000000001100011) = .ok (.maxPwm99 true) := by decide
theorem test_decode_laseOnPowerUpFalse : decode (.e 0b001110000000000000000) = .ok (.laseOnPowerUpFalse true) := by decide
theorem test_decode_laseOnPowerUpTrue : decode (.e 0b001110000000000000001) = .ok (.laseOnPowerUpTrue true) := by decide
theorem test_decode_modeManual : decode (.e 0b010010000000000000000) = .ok (.modeManual true) := by decide
theorem test_decode_modeAnc : decode (.e 0b010010000000000000001) = .ok (.modeAnc true) := by decide
theorem test_decode_modeAnv : decode (.e 0b010010000000000000010) = .ok (.modeAnv true) := by decide
theorem test_decode_modeManClosed : decode (.e 0b010010000000000000011) = .ok (.modeManClosed true) := by decide
theorem test_decode_modeAnvClosed : decode (.e 0b010010000000000000100) = .ok (.modeAnvClosed true) := by decide
theorem test_decode_laseFalse : decode (.e 0b010110000000000000000) = .ok (.laseFalse true) := by decide
theorem test_decode_laseTrue : decode (.e 0b010110000000000000001) = .ok (.laseTrue true) := by decide
theorem test_decode_percent : decode (.e 0b011010000101010000000) = .ok (.percent true 0x0A80) := by decide
theorem test_decode_statusRequest : decode (.e 0b011100001001000110100) = .ok (.statusRequest false 0x1234) := by decide
theorem test_decode_addnc : decode (.a 0b00000000011000110000000000001011) = .ok (.addnc 99 11) := by decide

/-- T6: one word of each kind of rejection, at the boundary of each clause of R75 and R76. -/
theorem test_decode_rejects_catalog :
    decode (.e 0x000000) = .error .invalidData ∧ decode (.e 0x01000F) = .error .invalidData ∧
    decode (.e 0x000105) = .error .invalidData ∧ decode (.e 0x020002) = .error .invalidData ∧
    decode (.e 0x038000) = .error .invalidData ∧ decode (.e 0x040060) = .error .invalidData ∧
    decode (.e 0x060002) = .error .invalidData ∧ decode (.e 0x080005) = .error .invalidData ∧
    decode (.e 0x0A0002) = .error .invalidData := by decide

theorem test_decode_rejects_percent_128 :
    decode (.e 0x0C8000) = .error .invalidData ∧ decode (.e 0x0C7FFF) = .ok (.percent false 0x7FFF) := by decide

theorem test_decode_rejects_unknown_command :
    decode (.e 0x100000) = .error .unrecognizedCommand ∧ decode (.e 0x1FFFFF) = .error .unrecognizedCommand ∧
    decode (.e 0x0FFFFF) = .ok (.statusRequest true 0xFFFF) := by decide

theorem test_table_word_width :
    decodeTableWord 24 0x0D0A00 = some (.percent true 0x0A00) ∧ decodeTableWord 32 0x00010013 = some (.addnc 1 19) ∧
    decodeTableWord 24 0x200005 = none ∧ decodeTableWord 24 0 = none := by decide

/-! ### One step per instruction: the response words of T3, T4, T5, T1 -/

theorem test_pwmFreq5 : respE 0x000005 = some 0x020000775B ∧ respE 0x010005 = some 0x030088775B := by decide
theorem test_pwmFreq10 : respE 0x00000A = some 0x020000785B ∧ respE 0x01000A = some 0x030087785B := by decide
theorem test_pwmFreq20 : respE 0x000014 = some 0x020000795B ∧ respE 0x010014 = some 0x030086795B := by decide
theorem test_gateLogicUp : respE 0x020000 = some 0x0200007A5B ∧ respE 0x030000 = some 0x0300857A5B := by decide
theorem test_gateLogicDown : respE 0x020001 = some 0x0200007B5B ∧ respE 0x030001 = some 0x0300847B5B := by decide
theorem test_maxPwm95 : respE 0x04005F = some 0x0200007C5B ∧ respE 0x05005F = some 0x0300837C5B := by decide
theorem test_maxPwm99 : respE 0x040063 = some 0x0200007D5B ∧ respE 0x050063 = some 0x0300827D5B := by decide
theorem test_laseOnPowerUpFalse : respE 0x060000 = some 0x020000315B ∧ respE 0x070000 = some 0x0300CE315B := by decide
theorem test_laseOnPowerUpTrue : respE 0x060001 = some 0x020000305B ∧ respE 0x070001 = some 0x0300CF305B := by decide
theorem test_modeManual : respE 0x080000 = some 0x020000705B ∧ respE 0x090000 = some 0x03008F705B := by decide
theorem test_modeAnc : respE 0x080001 = some 0x020000715B ∧ respE 0x090001 = some 0x03008E715B := by decide
theorem test_modeAnv : respE 0x080002 = some 0x020000725B ∧ respE 0x090002 = some 0x03008D725B := by decide
theorem test_modeManClosed : respE 0x080003 = some 0x020000735B ∧ respE 0x090003 = some 0x03008C735B := by decide
theorem test_modeAnvClosed : respE 0x080004 = some 0x020000745B ∧ respE 0x090004 = some 0x03008B745B := by decide
theorem test_laseFalse : respE 0x0A0000 = some 0x020000765B ∧ respE 0x0B0000 = some 0x030089765B := by decide
theorem test_laseTrue : respE 0x0A0001 = some 0x020000755B ∧ respE 0x0B0001 = some 0x03008A755B := by decide
theorem test_percent : respE 0x0D0A00 = some 0x0476147F5B ∧ respE 0x0C0A00 = some 0x0300147F5B ∧
    respE 0x0D5300 = some 0x049BA67F5B ∧ respE 0x0D7FFF = some 0x040BFF7F5B := by decide
theorem test_percent_128_invalid : respE 0x0D8000 = some 0x1000000000 := by decide
theorem test_statusRequest : respE 0x0E0000 = some 0x010000007E ∧ respE 0x0FFFFF = some 0x010000007E := by decide
theorem test_addnc_source_examples :
    respA 0x00010001 = some 2 ∧ respA 0x00010012 = some 19 ∧ respA 0x00010013 = some 10 := by decide
theorem test_addnc_overflows :
    respA 0xFFFFFFFF = some 20060 ∧ respA 0xEA609C40 = some 0 ∧ respA 0xEA5F9C40 = some 99999 := by decide

/-! ### Errors, idle ports, TXLOG, lists -/

theorem test_errors : respE 0x080005 = some 0x1000000000 ∧ respE 0x100001 = some 0x0800000000 := by decide
theorem test_idle_outputs_zero :
    nextField State.rWord (step State.reset) = some 0 ∧ nextField State.rValid (step State.reset) = some false := by decide
theorem test_txlog_percent :
    nextField State.txlog (step (withWord (.e 0x0D0A00))) = some [0x5B, 0x7F, 0x14, 0x76] := by decide
theorem test_txlog_error : nextField State.txlog (step (withWord (.e 0x0D8000))) = some [] := by decide
theorem test_both_ports :
    nextField (fun t => (t.rWord, t.sSum)) (step { withWord (.e 0) with pending := [⟨true, 0x0E1234, true, 0x00010013⟩] }) =
      some (0x010000007E, 10) := by decide
/-- T2. -/
theorem test_cla10_lists : cla10 [7] = 7 ∧ cla10 [19, 19, 19] = 37 ∧ cla10 [5, 5, 5] = 5 ∧ cla10 [1, 18, 1] = 10 := by
  decide
/-- Corner values of not8, T3. -/
theorem test_not8 : not8 0 = 0xFF ∧ not8 0xFF = 0 ∧ not8 0x5B = 0xA4 ∧ not8 0x7E = 0x81 ∧ not8 0x80 = 0x7F := by decide
/-- S5, S7, S8 at the source's level. -/
theorem test_sourceEncode :
    sourceEncode romGK ⟨"percent", .number 10 0, true⟩ = some (.ok [0x5B, 0x7F, 20, 0x76]) ∧
    sourceEncode romGK ⟨"mode", .text "invalid_key", false⟩ = some (.error .invalidData) ∧
    sourceEncode romGK ⟨"nonexistent", .number 1 0, false⟩ = some (.error .unrecognizedCommand) := by decide

/-! ### Witnesses: states and operands that meet the hypotheses of each statement -/

theorem witness_StepLeavesPortsCombinational : ∃ t, step (withWord (.e 0x0D0A00)) = .next t := ⟨_, rfl⟩
theorem witness_StepLeavesLegalResponse : ∃ t, step (withWord (.e 0x100001)) = .next t := ⟨_, rfl⟩
theorem witness_StepNeverWritesCatalog :
    Memory.wf State.reset.rom ∧ ∃ t, step (State.reset.placeWord (.e 0x000005)) = .next t := ⟨by decide, _, rfl⟩
theorem witness_StepRunsDecodedEncoderInstr :
    (withWord (.e 0x0D7FFF)).nextPresentation.eValid = true ∧
    decode (.e (withWord (.e 0x0D7FFF)).nextPresentation.e) = .ok (.percent true 0x7FFF) ∧
    (Instr.percent true 0x7FFF).wf = true := by decide
theorem witness_StepRunsDecodedAdderInstr :
    (withWord (.a 0x00010013)).nextPresentation.aValid = true ∧
    decode (.a (withWord (.a 0x00010013)).nextPresentation.a) = .ok (.addnc 1 19) := by decide
theorem witness_StepWithOnePortDriven :
    ((withWord (.e 0x0E0000)).nextPresentation = ⟨true, 0x0E0000, false, 0⟩ ∧
      decode (.e 0x0E0000) = .ok (.statusRequest false 0)) ∧
    ((withWord (.a 0xFFFFFFFF)).nextPresentation = ⟨false, 0, true, 0xFFFFFFFF⟩ ∧
      decode (.a 0xFFFFFFFF) = .ok (.addnc 0xFFFF 0xFFFF)) := by decide
theorem witness_StepIdleDrivesZeros : State.reset.nextPresentation = ⟨false, 0, false, 0⟩ := by decide
theorem witness_PlacedWordRunsNext :
    decodeTableWord 24 0x0B0000 = some (.laseFalse true) ∧ decodeTableWord 32 0xFFFF0001 = some (.addnc 0xFFFF 1) := by
  decide
theorem witness_ResponseDependsOnRequestAlone :
    SameERequest (withWord (.e 0x0E0000)) { withWord (.e 0x0E0000) with rLen := 3, txlog := [1] } ∧
    SameARequest (withWord (.a 5)) { withWord (.a 5) with sSum := 7, rom := [] } ∧
    (∃ t, step (withWord (.e 0x0E0000)) = .next t) ∧
    (∃ t, step { withWord (.e 0x0E0000) with rLen := 3, txlog := [1] } = .next t) := by
  exact ⟨⟨rfl, rfl, rfl⟩, ⟨rfl, rfl⟩, ⟨_, rfl⟩, ⟨_, rfl⟩⟩
theorem witness_ErrorLeavesNoTrace :
    ∃ s p q s1 s2 t2 e, s.pending = [p, q] ∧ responseTo s.rom p = some (.error e) ∧ step s = .next s1 ∧
      step s1 = .next s2 ∧ step { s with pending := [q] } = .next t2 :=
  ⟨{ State.reset with pending := [.ofPortWord (.e 0x0D8000), .ofPortWord (.e 0x0E1234)] }, .ofPortWord (.e 0x0D8000),
    .ofPortWord (.e 0x0E1234), _, _, _, .invalidData, rfl, rfl, rfl, rfl, rfl⟩
theorem witness_RunTxlogIsConcatenationInRequestOrder :
    (withWord (.e 0x0E0000)).pending = [⟨true, 0x0E0000, false, 0⟩] := by decide
theorem witness_DecodeOfEncode :
    (Instr.percent true 0x7FFF).wf = true ∧ (Instr.laseTrue true).wf = true ∧ (Instr.addnc 0xFFFF 0).wf = true := by decide
theorem witness_EncodeOfDecode :
    decode (.e 0x0F1234) = .ok (.statusRequest true 0x1234) ∧ decode (.a 0x00010013) = .ok (.addnc 1 19) := by decide
theorem witness_DecodeFollowsOpcodeRows :
    ⟨"PERCENT", 0x1E8000, 0x0C0000⟩ ∈ opcodeRows ∧
    OpcodeRow.matches ⟨"PERCENT", 0x1E8000, 0x0C0000⟩ 0x0D7FFF = true := by decide
theorem witness_OpcodeRowsAreDisjoint :
    ⟨"STATUS_REQUEST", 0x1E0000, 0x0E0000⟩ ∈ opcodeRows ∧
    OpcodeRow.matches ⟨"STATUS_REQUEST", 0x1E0000, 0x0E0000⟩ 0x0FFFFF = true := by decide
theorem witness_CatalogChecksumFlagOnlyAppends :
    (withWord (.e 0)).rom = romGK ∧ Family.keyOf .mode 5 = none ∧ Family.keyOf .lase 2 = none := by decide
theorem witness_PercentAnswersDataByteAndAdderChecksum :
    (0x7FFF : BitVec 16).toNat < 2 ^ 15 ∧ 2 ^ 15 ≤ (0x8000 : BitVec 16).toNat := by decide
theorem witness_PercentFieldsAreTruncations : (0x7FFF : BitVec 16).toNat < 2 ^ 15 := by decide
theorem witness_PercentChecksumClosedForm :
    (0x7F80 : BitVec 16).toNat < 2 ^ 15 ∧ (0x7F80 : BitVec 16).toNat / 256 = 100 * 1 + 10 * 2 + 7 := by decide
theorem witness_PercentSumFitsByte :
    (0x7A00 : BitVec 16).toNat < 2 ^ 15 ∧ (0x6400 : BitVec 16).toNat / 256 ≤ 100 := by decide
theorem witness_PercentChecksumIgnoresFraction :
    (0x0A00 : BitVec 16).toNat < 2 ^ 15 ∧ (0x0A00 : BitVec 16).toNat / 256 = (0x0AFF : BitVec 16).toNat / 256 := by decide
theorem witness_PercentChecksumIsNotOverDataByte :
    (0x007F : BitVec 16).toNat < 128 ∧ (0x0080 : BitVec 16).toNat < 2 ^ 15 := by decide
theorem witness_StatusRequestAnswersOneByte :
    0x0E0000 ≤ (0x0E0000 : EWord).toNat ∧ (0x0FFFFF : EWord).toNat ≤ 0x0FFFFF := by decide
/-- The two corner cases: `op0 = 0`, and `op0 = op1` at position 2. -/
theorem witness_AddncAnswersCarryLessSum :
    respA 0x00001267 = some 4711 ∧ respA 0xFFFFFFFF = some 20060 ∧ digit 20060 2 = 2 * digit 65535 2 % 10 := by decide
theorem witness_Cla10AddsEachDigitModuloTen :
    ([1, 19] : List Nat) ≠ [] ∧ digit (cla10 [1, 19]) 2 = (digit 1 2 + digit 19 2) % 10 ∧ 1 ≤ 2 := by decide
theorem witness_DigitLengthIsLeastPower : 1 ≤ 10 ∧ 10 < 10 ^ 2 ∧ len10 10 = 2 := by decide
theorem witness_DigitExtraction : 1 ≤ 3 ∧ len10 19 < 3 ∧ digit 19 3 = 0 ∧ digit 19 2 = 1 := by decide
theorem witness_PositionalSumOverEveryInput : 1 ≤ 2 ∧ posSum [1, 19] 2 = 1 := by decide
theorem witness_Cla10RangeBound : ([0] : List Nat) ≠ [] ∧ 65535 < 2 ^ 16 ∧ cla10 [65535, 65535] ≤ 99999 := by decide
theorem witness_Cla10DiffersFromSumByDroppedCarries :
    ([1, 19] : List Nat) ≠ [] ∧ 10 ≤ posSum [1, 19] 1 ∧ cla10 [1, 19] = 10 := by decide
theorem witness_Cla10GroupLaws :
    [1, 19].Perm [19, 1] ∧ 123 < 10 ^ 3 ∧ 987 < 10 ^ 3 ∧ cla10 [123, 987] = 0 := by decide
theorem witness_ErrorEntryIsTheResponse :
    (withWord (.e 0x1FFFFF)).nextPresentation.eValid = true ∧
    decodeE (withWord (.e 0x1FFFFF)).nextPresentation.e = .error .unrecognizedCommand ∧
    (withWord (.e 0x0C8000)).nextPresentation.eValid = true ∧
    decodeE (withWord (.e 0x0C8000)).nextPresentation.e = .error .invalidData := by decide
theorem witness_AdderChangesOnlySum : ∃ t, exec (.addnc 1 19) State.reset = .next t := ⟨_, rfl⟩
theorem witness_EncoderInstrChangesOnlyResponse :
    ∃ t, (Instr.percent true 0x8000).onEPort = true ∧ exec (.percent true 0x8000) State.reset = .next t := ⟨_, rfl, rfl⟩
/-- One word for a legal key, an illegal key, percentages at both sides of 128 (R133), a status request and an unknown
command. -/
theorem witness_PortRefinesSourceEncode :
    codes ⟨"mode", .text "anv", true⟩ 0x090002 ∧ codes ⟨"mode", .text "invalid_key", false⟩ 0x080005 ∧
    codes ⟨"percent", .number 255 1, true⟩ 0x0D7F80 ∧ codes ⟨"status_request", .negative, true⟩ 0x0F0000 ∧
    codes ⟨"nonexistent", .number 1 0, false⟩ 0x100001 ∧ codes ⟨"percent", .number 128 0, true⟩ 0x0D8000 ∧
    sourceEncode romGK ⟨"percent", .number 128 0, true⟩ = some (.error .invalidData) := by
  refine ⟨?_, ?_, ?_, ?_, ?_, ?_, by decide⟩
  · exact ⟨by decide, by decide, show wordData 0x090002 = Key.code .modeAnv by decide⟩
  · exact ⟨by decide, by decide, show Family.keyOf .mode (wordData 0x080005) = none by decide⟩
  · exact ⟨by decide, by decide, show 255 < 256 * (1 + 1) ∧ (wordData 0x0D7F80).toNat = 256 * 255 / (1 + 1) by decide⟩
  · exact ⟨by decide, by decide, trivial⟩
  · exact ⟨by decide, by decide, trivial⟩
  · exact ⟨by decide, by decide, show 128 < 256 * (0 + 1) ∧ (wordData 0x0D8000).toNat = 256 * 128 / (0 + 1) by decide⟩
theorem witness_EveryPresentableRequestHasWord :
    ∃ n m, (⟨"percent", .number 255 1, true⟩ : SourceRequest).data = .number n m ∧ n < 256 * (m + 1) :=
  ⟨255, 1, rfl, by decide⟩

end Sys2Proof.Tests
end

section
/-! Proofs of the scope family: the step as a function of the two port functions, and what a run of steps leaves of TXLOG
(spec/00_scope.md R10, R17, R18; spec/10_state.md R30, R33). -/

namespace Sys2Proof.Machine

/-! ### The E port's evaluation is its port function (R30, R152) -/

theorem encoderPort_catalog {rom : Memory} {w : EWord} {f : Family} (h : shapeOf (wordCmd w) = .catalog f) :
    encoderPort rom w = catalogCommand rom f (wordCs w) (wordData w) := by
  simp only [encoderPort, h]

theorem encoderPort_percent {rom : Memory} {w : EWord} (h : shapeOf (wordCmd w) = .percent) :
    encoderPort rom w = percentCommand (wordCs w) (wordData w) := by
  simp only [encoderPort, h]

theorem encoderPort_status {rom : Memory} {w : EWord} (h : shapeOf (wordCmd w) = .status) :
    encoderPort rom w = statusCommand (wordCs w) (wordData w) := by
  simp only [encoderPort, h]

theorem encoderPort_bad {rom : Memory} {w : EWord} (h : shapeOf (wordCmd w) = .bad) :
    encoderPort rom w = .error .unrecognizedCommand := by
  simp only [encoderPort, h]

/-- The operation of an E word answers what the port function says of the word. -/
theorem exec_of_decodeE_ok {w : EWord} {i : Instr} (h : decodeE w = .ok i) (s : State) :
    exec i s = .next (s.answer (encoderPort s.rom w)) := by
  obtain ⟨k, cs, rfl, rfl⟩ | ⟨cs, data, rfl, -, rfl⟩ | ⟨cs, data, rfl, rfl⟩ := decodeE_cases h
  · rw [exec_catalog, encoderPort_catalog (f := k.family) (by simp), wordCs_eWordOf, wordData_eWordOf]
  · rw [exec_percent, encoderPort_percent (by rw [wordCmd_eWordOf]; rfl), wordCs_eWordOf, wordData_eWordOf]
  · rw [exec_statusRequest, encoderPort_status (by rw [wordCmd_eWordOf]; rfl), wordCs_eWordOf, wordData_eWordOf]

/-- The error of an E word is the one the port function answers. -/
theorem encoderPort_of_decodeE_error {w : EWord} {e : ErrorKind} (h : decodeE w = .error e) (rom : Memory) :
    encoderPort rom w = .error e := by
  cases hs : shapeOf (wordCmd w) with
  | catalog f =>
    rw [decodeE_catalog hs] at h
    cases hk : f.keyOf (wordData w) with
    | none => rw [encoderPort_catalog hs, catalogCommand_illegal hk]; simpa [hk] using h
    | some k => simp [hk] at h
  | percent =>
    rw [decodeE_percent hs] at h
    split at h
    · rw [encoderPort_percent hs, percentCommand_out ‹_›]; simpa using h
    · cases h
  | status => simp [decodeE_status hs] at h
  | bad => simpa [decodeE_bad hs, encoderPort_bad hs] using h

/-- What an evaluation of the E port leaves: the answer of the port function, or zeros while nothing is presented. -/
def State.afterE (s : State) : State := if s.eValid then s.answer (encoderPort s.rom s.eWord) else s.idleE

/-- What an evaluation of the A port leaves. -/
def State.afterA (s : State) : State := if s.aValid then s.answerSum (adderPort s.aWord) else s.idleA

theorem evalE_eq_afterE (s : State) : evalE s = .next s.afterE := by
  unfold evalE State.afterE
  split
  · split
    · exact exec_of_decodeE_ok ‹_› s
    · rw [encoderPort_of_decodeE_error ‹_›, State.answer_error]
  · rfl

theorem evalA_eq_afterA (s : State) : evalA s = .next s.afterA := evalA_eq s

/-- A step in closed form. -/
theorem step_eq (s : State) : step s = .next s.present.afterE.afterA.record := by
  rw [step, evalE_eq_afterE, andThen_next, evalA_eq_afterA, andThen_next]

/-! ### What the evaluations keep -/

@[simp] theorem State.afterE_rom (s : State) : s.afterE.rom = s.rom := by unfold State.afterE; split <;> simp
@[simp] theorem State.afterE_pending (s : State) : s.afterE.pending = s.pending := by unfold State.afterE; split <;> simp
@[simp] theorem State.afterE_txlog (s : State) : s.afterE.txlog = s.txlog := by unfold State.afterE; split <;> simp
@[simp] theorem State.afterA_rom (s : State) : s.afterA.rom = s.rom := by unfold State.afterA; split <;> simp
@[simp] theorem State.afterA_pending (s : State) : s.afterA.pending = s.pending := by unfold State.afterA; split <;> simp
@[simp] theorem State.afterA_txlog (s : State) : s.afterA.txlog = s.txlog := by unfold State.afterA; split <;> simp

/-! ### The bytes the host writes for a response (R33, R43) -/

/-- An OK response has 1 to 4 bytes (R28). -/
theorem encoderPort_ok_length {rom : Memory} {w : EWord} {bytes : List Byte} (h : encoderPort rom w = .ok bytes) :
    1 ≤ bytes.length ∧ bytes.length ≤ 4 := by
  cases hs : shapeOf (wordCmd w) with
  | catalog f =>
    rw [encoderPort_catalog hs] at h
    cases hk : f.keyOf (wordData w) with
    | none => simp [catalogCommand_illegal hk] at h
    | some k =>
      obtain ⟨rfl, hd⟩ := keyOf_eq_some hk
      rw [hd, catalogCommand_code] at h
      cases h
      cases wordCs w <;> simp
  | percent =>
    rw [encoderPort_percent hs] at h
    cases hb : (wordData w).getLsbD 15 with
    | true => simp [percentCommand_out hb] at h
    | false =>
      rw [percentCommand_in hb] at h
      cases h
      cases wordCs w <;> simp
  | status =>
    rw [encoderPort_status hs, statusCommand_eq] at h
    cases h
    simp
  | bad => simp [encoderPort_bad hs] at h

/-- The four lanes, cut at the length, are the byte sequence again. -/
theorem take_lanes {bytes : List Byte} (h : bytes.length ≤ 4) :
    [bytes.getD 0 0, bytes.getD 1 0, bytes.getD 2 0, bytes.getD 3 0].take bytes.length = bytes := by
  match bytes, h with
  | [], _ => rfl
  | [_], _ => rfl
  | [_, _], _ => rfl
  | [_, _, _], _ => rfl
  | [_, _, _, _], _ => rfl

theorem State.sentBytes_respond (s : State) {bytes : List Byte} (h : bytes.length ≤ 4) :
    (s.respond bytes).sentBytes = bytes := by
  have hlen : (BitVec.ofNat 3 bytes.length).toNat = bytes.length := by
    rw [BitVec.toNat_ofNat]; omega
  simpa [State.sentBytes, hlen] using take_lanes h

@[simp] theorem State.sentBytes_raise (s : State) (e : ErrorKind) : (s.raise e).sentBytes = [] := by
  cases e <;> rfl

@[simp] theorem State.sentBytes_idleE (s : State) : s.idleE.sentBytes = [] := rfl

/-- The host writes the bytes of an OK response to the word on the wires, and nothing for an error or an idle port. -/
theorem State.sentBytes_afterE (s : State) :
    s.afterE.sentBytes = txBytes (if s.eValid then some (encoderPort s.rom s.eWord) else none) := by
  unfold State.afterE
  split
  · cases hr : encoderPort s.rom s.eWord with
    | ok bytes => exact s.sentBytes_respond (encoderPort_ok_length hr).2
    | error e => exact s.sentBytes_raise e
  · exact s.sentBytes_idleE

/-- The A port sends no byte. -/
@[simp] theorem State.sentBytes_afterA (s : State) : s.afterA.sentBytes = s.sentBytes := by
  unfold State.afterA; split <;> rfl

/-! ### One step and a run of steps, for the host -/

/-- A step answers, and does to the host's records and the ROM just this: the bytes of the response to the next
presentation go to TXLOG, and the presentation is taken off the list (R33; log 3). -/
theorem step_host_records (s : State) : ∃ t, step s = .next t ∧
    t.txlog = s.txlog ++ txBytes (responseTo s.rom s.nextPresentation) ∧ t.pending = s.pending.tail ∧ t.rom = s.rom := by
  refine ⟨_, step_eq s, ?_, by simp, by simp⟩
  simp [State.sentBytes_afterE, responseTo]

theorem run_succ_of_step {M : Host.Core} {s t : M.State} (h : M.step s = .next t) (n : Nat) :
    M.run (n + 1) s = M.run n t := by
  rw [Host.Core.run, h]

/-! ### The obligations -/

/-- Settles O6: a step is a state in closed form, whatever is presented. -/
theorem stepAlwaysAnswersNext : Obligations.StepAlwaysAnswersNext := fun s => ⟨_, step_eq s⟩

/-- Settles O16, by induction on the list of presentations, one step for each. -/
theorem runTxlogIsConcatenationInRequestOrder : Obligations.RunTxlogIsConcatenationInRequestOrder := by
  intro ps
  induction ps with
  | nil => exact fun s hs => ⟨s, rfl, by simp, hs, rfl⟩
  | cons p ps ih =>
    intro s hs
    obtain ⟨u, hstep, hlog, hpend, hrom⟩ := step_host_records s
    obtain ⟨t, hrun, hlog', hpend', hrom'⟩ := ih u (by rw [hpend, hs, List.tail_cons])
    have hnext : s.nextPresentation = p := by rw [State.nextPresentation, hs, List.headD_cons]
    refine ⟨t, (run_succ_of_step (M := Sys2Proof.core) hstep ps.length).trans hrun, ?_, hpend', hrom'.trans hrom⟩
    rw [hlog', hlog, hrom, hnext, List.map_cons, List.flatten_cons, List.append_assoc]

/-- Settles O49: a byte is its own residue modulo 256, and the complement of a byte is 255 less it. -/
theorem not8IsOnesComplement : Obligations.Not8IsOnesComplement := by
  have hbyte (b : Byte) : (not8 b.toNat).toNat = 255 - b.toNat := by
    rw [not8_toNat, Nat.mod_eq_of_lt b.isLt]
  refine ⟨not8_toNat, fun b => ⟨hbyte b, BitVec.eq_of_toNat_eq ?_⟩⟩
  rw [hbyte, BitVec.toNat_not]

end Sys2Proof.Machine
end

section
/-! Proofs of the state family: a step leaves the port functions of the inputs on the outputs, the ports are independent,
and a step runs what its words decode to (spec/10_state.md R20 to R34; spec/30_encoding.md R62). -/

namespace Sys2Proof.Machine

/-! ### What the evaluations leave on the wires -/

@[simp] theorem State.afterE_eValid (s : State) : s.afterE.eValid = s.eValid := by unfold State.afterE; split <;> simp
@[simp] theorem State.afterE_eWord (s : State) : s.afterE.eWord = s.eWord := by
  unfold State.afterE; split <;> simp [State.eWord]
@[simp] theorem State.afterE_aValid (s : State) : s.afterE.aValid = s.aValid := by unfold State.afterE; split <;> simp
@[simp] theorem State.afterE_aWord (s : State) : s.afterE.aWord = s.aWord := by
  unfold State.afterE; split <;> simp [State.aWord]
@[simp] theorem State.afterE_rValid (s : State) : s.afterE.rValid = s.eValid := by
  unfold State.afterE; split <;> simp [*]
theorem State.afterE_rWord (s : State) :
    s.afterE.rWord = if s.eValid then responseWord (encoderPort s.rom s.eWord) else 0 := by
  unfold State.afterE; split <;> simp [State.answer_rWord]

@[simp] theorem State.afterA_eValid (s : State) : s.afterA.eValid = s.eValid := by unfold State.afterA; split <;> rfl
@[simp] theorem State.afterA_eWord (s : State) : s.afterA.eWord = s.eWord := by unfold State.afterA; split <;> rfl
@[simp] theorem State.afterA_aValid (s : State) : s.afterA.aValid = s.aValid := by unfold State.afterA; split <;> rfl
@[simp] theorem State.afterA_aWord (s : State) : s.afterA.aWord = s.aWord := by unfold State.afterA; split <;> rfl
@[simp] theorem State.afterA_rValid (s : State) : s.afterA.rValid = s.rValid := by unfold State.afterA; split <;> rfl
@[simp] theorem State.afterA_rStatus (s : State) : s.afterA.rStatus = s.rStatus := by unfold State.afterA; split <;> rfl
@[simp] theorem State.afterA_rLen (s : State) : s.afterA.rLen = s.rLen := by unfold State.afterA; split <;> rfl
@[simp] theorem State.afterA_rB0 (s : State) : s.afterA.rB0 = s.rB0 := by unfold State.afterA; split <;> rfl
@[simp] theorem State.afterA_rB1 (s : State) : s.afterA.rB1 = s.rB1 := by unfold State.afterA; split <;> rfl
@[simp] theorem State.afterA_rB2 (s : State) : s.afterA.rB2 = s.rB2 := by unfold State.afterA; split <;> rfl
@[simp] theorem State.afterA_rB3 (s : State) : s.afterA.rB3 = s.rB3 := by unfold State.afterA; split <;> rfl
@[simp] theorem State.afterA_rWord (s : State) : s.afterA.rWord = s.rWord := by simp [State.rWord]
@[simp] theorem State.afterA_sValid (s : State) : s.afterA.sValid = s.aValid := by
  unfold State.afterA; split <;> simp [*]
theorem State.afterA_sSum (s : State) : s.afterA.sSum = if s.aValid then adderPort s.aWord else 0 := by
  unfold State.afterA; split <;> rfl

theorem State.afterE_of_idle {s : State} (h : s.eValid = false) : s.afterE = s.idleE := by
  simp [State.afterE, h]

theorem State.afterA_of_idle {s : State} (h : s.aValid = false) : s.afterA = s.idleA := by
  simp [State.afterA, h]

theorem State.afterE_of_decodeE_error {s : State} {e : ErrorKind} (hv : s.eValid = true)
    (h : decodeE s.eWord = .error e) : s.afterE = s.raise e := by
  simp [State.afterE, hv, encoderPort_of_decodeE_error h]

theorem step_eq_next_iff {s t : State} : step s = .next t ↔ t = s.present.afterE.afterA.record := by
  rw [step_eq, Host.Outcome.next.injEq, eq_comm]

/-! ### The outputs are the port functions of the inputs (R30) -/

theorem combinational_afterE_afterA (s : State) : Combinational s.afterE.afterA := by
  refine ⟨?_, ?_, ?_, ?_⟩
  · simp
  · simp [State.afterE_rWord]
  · simp
  · simp [State.afterA_sSum]

/-- Settles O3: both evaluations leave the port functions' values, and the host's record changes no wire. -/
theorem stepLeavesPortsCombinational : Obligations.StepLeavesPortsCombinational := by
  intro s t h
  rw [step_eq_next_iff.1 h]
  exact combinational_afterE_afterA s.present

/-! ### The responses the spec allows (R28, R62) -/

theorem legalResponse_respond (s : State) {bytes : List Byte} (h1 : 1 ≤ bytes.length) (h4 : bytes.length ≤ 4) :
    LegalResponse (s.respond bytes) := by
  have hlen : (s.respond bytes).rLen.toNat = bytes.length := by
    rw [State.respond_rLen, BitVec.toNat_ofNat]; omega
  have hlane (n : Nat) (h : bytes.length ≤ n) : bytes.getD n 0 = 0 := List.getD_eq_default _ _ h
  unfold LegalResponse
  rw [hlen]
  refine ⟨show statusOk ≠ 3 by decide, fun _ => ⟨h1, h4⟩, ?_, hlane 0, hlane 1, hlane 2, hlane 3⟩
  rintro (hv | hs)
  · cases hv
  · exact absurd rfl hs

theorem legalResponse_raise (s : State) (e : ErrorKind) : LegalResponse (s.raise e) := by
  cases e <;> simp [LegalResponse, statusOf]

theorem legalResponse_idleE (s : State) : LegalResponse s.idleE := by simp [LegalResponse]

theorem legalResponse_afterE (s : State) : LegalResponse s.afterE := by
  unfold State.afterE
  split
  · cases hr : encoderPort s.rom s.eWord with
    | ok bytes =>
      obtain ⟨h1, h4⟩ := encoderPort_ok_length hr
      exact legalResponse_respond s h1 h4
    | error e => exact legalResponse_raise s e
  · exact legalResponse_idleE s

theorem legalResponse_afterA {s : State} (h : LegalResponse s) : LegalResponse s.afterA := by
  simpa [LegalResponse] using h

/-- Settles O4: a sequence of 1 to 4 bytes, an error and an idle port each give an allowed response. -/
theorem stepLeavesLegalResponse : Obligations.StepLeavesLegalResponse := by
  intro s t h
  rw [step_eq_next_iff.1 h]
  exact legalResponse_afterA (legalResponse_afterE s.present)

/-! ### The catalog (R26, R41) -/

theorem step_rom {s t : State} (h : step s = .next t) : t.rom = s.rom := by simp [step_eq_next_iff.1 h]

/-- Settles O5: every part of a step leaves the ROM's list. -/
theorem stepNeverWritesCatalog : Obligations.StepNeverWritesCatalog := by
  intro s t h
  rw [step_rom h]
  exact ⟨rfl, fun _ => rfl, id⟩

/-! ### The ports are independent (R30, R197) -/

theorem State.answer_answerSum (s : State) (r : Except ErrorKind (List Byte)) (sum : SWord) :
    (s.answerSum sum).answer r = (s.answer r).answerSum sum := by cases r <;> rfl

theorem State.answer_idleA (s : State) (r : Except ErrorKind (List Byte)) :
    s.idleA.answer r = (s.answer r).idleA := by cases r <;> rfl

/-- Updates of the two ports' outputs commute, in each of the four combinations of the strobes. -/
theorem State.afterE_afterA (s : State) : s.afterE.afterA = s.afterA.afterE := by
  rw [State.afterA.eq_def s.afterE, State.afterE_aValid, State.afterE_aWord]
  rw [State.afterE.eq_def s.afterA, State.afterA_eValid, State.afterA_eWord, State.afterA_rom]
  unfold State.afterE State.afterA
  split <;> split
  · rw [State.answer_answerSum]
  · rfl
  · rw [State.answer_idleA]
  · rfl

/-- Settles O11: the two evaluations, in closed form, commute. -/
theorem portsDoNotAffectEachOther : Obligations.PortsDoNotAffectEachOther := by
  intro s
  rw [evalE_eq_afterE, evalA_eq_afterA, andThen_next, andThen_next, evalA_eq_afterA, evalE_eq_afterE,
    State.afterE_afterA]

/-! ### A response depends on its request alone (R20) -/

theorem sameEOutputs_answer (s t : State) (r : Except ErrorKind (List Byte)) :
    SameEOutputs (s.answer r) (t.answer r) := by
  cases r <;> simp [SameEOutputs]

theorem sameEOutputs_afterE {s t : State} (hrom : s.rom = t.rom) (hvalid : s.eValid = t.eValid)
    (hword : s.eWord = t.eWord) : SameEOutputs s.afterE t.afterE := by
  unfold State.afterE
  rw [hrom, hvalid, hword]
  split
  · exact sameEOutputs_answer s t _
  · simp [SameEOutputs]

theorem sameEOutputs_afterA {s t : State} (h : SameEOutputs s t) : SameEOutputs s.afterA t.afterA := by
  simpa [SameEOutputs] using h

theorem sameAOutputs_afterA {s t : State} (hvalid : s.aValid = t.aValid) (hword : s.aWord = t.aWord) :
    SameAOutputs s.afterA t.afterA := by
  simp [SameAOutputs, State.afterA_sSum, hvalid, hword]

/-- Settles O13: each evaluation reads its own strobe and word, and the E port's the ROM. -/
theorem responseDependsOnRequestAlone : Obligations.ResponseDependsOnRequestAlone := by
  intro s t s' t' hs ht
  rw [step_eq_next_iff.1 hs, step_eq_next_iff.1 ht]
  constructor
  · rintro ⟨hrom, hvalid, hword⟩
    exact sameEOutputs_afterA (sameEOutputs_afterE hrom hvalid (by simpa using hword))
  · rintro ⟨hvalid, hword⟩
    exact sameAOutputs_afterA (by simpa using hvalid) (by simpa using hword)

/-! ### TXLOG (R33) -/

@[simp] theorem State.sentBytes_record (s : State) : s.record.sentBytes = s.sentBytes := rfl

theorem step_txlog {s t : State} (h : step s = .next t) : t.txlog = s.txlog ++ t.sentBytes := by
  simp [step_eq_next_iff.1 h]

/-- Settles O15: the record is of the bytes on the wires, and these are the port function's. -/
theorem stepAppendsResponseBytesToTxlog : Obligations.StepAppendsResponseBytesToTxlog := by
  intro s
  obtain ⟨t, hstep, hlog, -, -⟩ := step_host_records s
  exact ⟨t, hstep, step_txlog hstep, hlog⟩

/-! ### Errors and frames (R165, R166) -/

/-- Settles O50: the E port's evaluation raises the error, and the A port's and the record add none to it. -/
theorem errorEntryIsTheResponse : Obligations.ErrorEntryIsTheResponse := by
  intro s e hv h
  have hE : s.present.afterE = s.present.raise e :=
    State.afterE_of_decodeE_error hv (by rw [State.present_eWord, h])
  have haWord : (s.present.raise e).aWord = s.nextPresentation.a := s.present_aWord
  refine ⟨_, step_eq s, ?_⟩
  rw [hE]
  cases e <;> simp [State.afterA_sSum, statusOf, haWord]

theorem sameButResponse_answer (s : State) (r : Except ErrorKind (List Byte)) : SameButResponse s (s.answer r) := by
  simp [SameButResponse]

/-- Settles O52: an encoder instruction answers, and ADDNC is not one of them. -/
theorem encoderInstrChangesOnlyResponse : Obligations.EncoderInstrChangesOnlyResponse := by
  intro i s t hi h
  obtain ⟨-, r, rfl⟩ | ⟨op0, op1, rfl, -⟩ := exec_cases h
  · exact ⟨sameButResponse_answer s r, s.answer_rValid r⟩
  · cases hi

/-! ### Reset (R34) -/

/-- Settles O1: the fields of the reset state, and an empty ROM list that reads as the parameter. -/
theorem resetLeavesOutputsZeroAndCatalogAsBuilt : Obligations.ResetLeavesOutputsZeroAndCatalogAsBuilt :=
  ⟨rfl, rfl, by decide, rfl, rfl, fun k => Memory.read_nil (romIndex k), rfl, rfl, rfl⟩

/-- The reset state is what an evaluation of its own idle inputs leaves. -/
theorem State.reset_afterE_afterA : State.reset.afterE.afterA = State.reset := rfl

/-- Settles O2: the reset state is one that evaluations leave. -/
theorem resetPortsAreCombinational : Obligations.ResetPortsAreCombinational := by
  unfold Obligations.ResetPortsAreCombinational
  rw [← State.reset_afterE_afterA]
  exact ⟨combinational_afterE_afterA _, legalResponse_afterA (legalResponse_afterE _)⟩

/-! ### A step runs what its words decode to (R30, R74, R106) -/

theorem evalE_of_decodeE_ok {s : State} {i : Instr} (hv : s.eValid = true) (h : decodeE s.eWord = .ok i) :
    evalE s = exec i s := by
  simp [evalE, hv, h]

theorem evalA_of_aValid {s : State} (hv : s.aValid = true) : evalA s = exec (decodeA s.aWord) s := by
  simp [evalA, hv]

theorem step_of_decodeE_ok {s : State} {i : Instr} (hv : s.nextPresentation.eValid = true)
    (h : decodeE s.nextPresentation.e = .ok i) :
    step s = andThen (andThen (exec i s.present) evalA) (fun t => .next t.record) := by
  rw [step, evalE_of_decodeE_ok hv (by rw [State.present_eWord, h])]

/-- Settles O7: with the strobe high, the E port's evaluation is the decoded instruction. -/
theorem stepRunsDecodedEncoderInstr : Obligations.StepRunsDecodedEncoderInstr :=
  fun _ _ hv h _ => step_of_decodeE_ok hv h

/-- Settles O8: the E port's evaluation leaves the A port's inputs, whose word is the decoded ADDNC's. -/
theorem stepRunsDecodedAdderInstr : Obligations.StepRunsDecodedAdderInstr := by
  intro s i hv h
  cases h
  have hA : evalA s.present.afterE = exec (decodeA s.nextPresentation.a) s.present.afterE := by
    rw [evalA_of_aValid (by simpa using hv), State.afterE_aWord, State.present_aWord]
  rw [step, evalE_eq_afterE, andThen_next, andThen_next, hA]

/-- Settles O9: the idle port's evaluation is its zeros. -/
theorem stepWithOnePortDriven : Obligations.StepWithOnePortDriven := by
  constructor
  · intro s w a i hp h
    have haValid : (s.present.answer (encoderPort s.present.rom w)).aValid = false := by simp [hp]
    rw [step_of_decodeE_ok (by rw [hp]) (by rw [hp]; exact h), exec_of_decodeE_ok h, andThen_next, evalA_eq_afterA,
      State.afterA_of_idle haValid, andThen_next, andThen_next]
  · intro s w a i hp h
    rw [stepRunsDecodedAdderInstr s i (by rw [hp]) (by rw [hp]; exact h), evalE_eq_afterE,
      State.afterE_of_idle (by simp [hp]), andThen_next]

/-- Settles O10: both evaluations drive zeros, and the zeros of the E port are no bytes to send. -/
theorem stepIdleDrivesZeros : Obligations.StepIdleDrivesZeros := by
  intro s w a hp
  have hE : s.present.afterE = s.present.idleE := State.afterE_of_idle (by simp [hp])
  have hA : s.present.idleE.afterA = s.present.idleE.idleA := State.afterA_of_idle (by simp [hp])
  refine ⟨_, step_eq s, ?_⟩
  rw [hE, hA]
  refine ⟨rfl, rfl, rfl, rfl, rfl, rfl, rfl, rfl, rfl, ?_, rfl, rfl⟩
  rw [← hA]
  simp

end Sys2Proof.Machine
end

section
/-! Proofs of the encoding family: the decoder and the encoder are inverse, the rows of the opcode table, which words
raise which error and how many, the quantities of a percent value, the words that stand for a source-level request, and
the placed word (spec/30_encoding.md R60 to R80). -/

namespace Sys2Proof.Machine

/-! ### Decode and encode are inverse (R60, R61, R64, R65, R74) -/

theorem encode_instr (k : Key) (cs : Bool) : encode (k.instr cs) = .e (eWordOf k.family.cmd cs k.code) := by
  cases k <;> rfl

theorem wf_instr (k : Key) (cs : Bool) : (k.instr cs).wf = true := by cases k <;> rfl

@[simp] theorem decodeE_catalogWord (k : Key) (cs : Bool) :
    decodeE (eWordOf k.family.cmd cs k.code) = .ok (k.instr cs) := by
  rw [decodeE_catalog (f := k.family) (by simp)]
  simp

theorem wf_percent_iff {cs : Bool} {data : BitVec 16} :
    (Instr.percent cs data).wf = true ↔ data.getLsbD 15 = false := by rw [Instr.wf, Bool.not_eq_true']

theorem decodeE_percentWord {cs : Bool} {data : BitVec 16} (h : data.getLsbD 15 = false) :
    decodeE (eWordOf 6 cs data) = .ok (.percent cs data) := by
  rw [decodeE_percent (by simp [shapeOf_percent]), wordCs_eWordOf, wordData_eWordOf, h, if_neg Bool.false_ne_true]

theorem decodeE_statusWord (cs : Bool) (data : BitVec 16) :
    decodeE (eWordOf 7 cs data) = .ok (.statusRequest cs data) := by
  rw [decodeE_status (by simp [shapeOf_status]), wordCs_eWordOf, wordData_eWordOf]

/-- Every operation is of one of four kinds. -/
theorem instr_cases (i : Instr) :
    (∃ k cs, i = Key.instr k cs) ∨ (∃ cs data, i = .percent cs data) ∨
    (∃ cs data, i = .statusRequest cs data) ∨ (∃ op0 op1, i = .addnc op0 op1) := by
  cases i with
  | pwmFreq5 cs => exact .inl ⟨.pwmFreq5, cs, rfl⟩
  | pwmFreq10 cs => exact .inl ⟨.pwmFreq10, cs, rfl⟩
  | pwmFreq20 cs => exact .inl ⟨.pwmFreq20, cs, rfl⟩
  | gateLogicUp cs => exact .inl ⟨.gateLogicUp, cs, rfl⟩
  | gateLogicDown cs => exact .inl ⟨.gateLogicDown, cs, rfl⟩
  | maxPwm95 cs => exact .inl ⟨.maxPwm95, cs, rfl⟩
  | maxPwm99 cs => exact .inl ⟨.maxPwm99, cs, rfl⟩
  | laseOnPowerUpFalse cs => exact .inl ⟨.laseOnPowerUpFalse, cs, rfl⟩
  | laseOnPowerUpTrue cs => exact .inl ⟨.laseOnPowerUpTrue, cs, rfl⟩
  | modeManual cs => exact .inl ⟨.modeManual, cs, rfl⟩
  | modeAnc cs => exact .inl ⟨.modeAnc, cs, rfl⟩
  | modeAnv cs => exact .inl ⟨.modeAnv, cs, rfl⟩
  | modeManClosed cs => exact .inl ⟨.modeManClosed, cs, rfl⟩
  | modeAnvClosed cs => exact .inl ⟨.modeAnvClosed, cs, rfl⟩
  | laseFalse cs => exact .inl ⟨.laseFalse, cs, rfl⟩
  | laseTrue cs => exact .inl ⟨.laseTrue, cs, rfl⟩
  | percent cs data => exact .inr (.inl ⟨cs, data, rfl⟩)
  | statusRequest cs data => exact .inr (.inr (.inl ⟨cs, data, rfl⟩))
  | addnc op0 op1 => exact .inr (.inr (.inr ⟨op0, op1, rfl⟩))

/-- Settles O17: each kind of operation is read back from its word's fields. -/
theorem decodeOfEncode : Obligations.DecodeOfEncode := by
  intro i hwf
  obtain ⟨k, cs, rfl⟩ | ⟨cs, data, rfl⟩ | ⟨cs, data, rfl⟩ | ⟨op0, op1, rfl⟩ := instr_cases i
  · rw [encode_instr]
    exact decodeE_catalogWord k cs
  · exact decodeE_percentWord (wf_percent_iff.1 hwf)
  · exact decodeE_statusWord cs data
  · exact congrArg Except.ok (by rw [decodeA, wordOp0_aWordOf, wordOp1_aWordOf])

/-- Settles O18: a decoded E word is the word of a catalog pair, a percent or a status request; an A word is its two
operands. -/
theorem encodeOfDecode : Obligations.EncodeOfDecode := by
  intro p i h
  cases p with
  | e w =>
    obtain ⟨k, cs, rfl, rfl⟩ | ⟨cs, data, rfl, hbit, rfl⟩ | ⟨cs, data, rfl, rfl⟩ := decodeE_cases h
    · exact ⟨wf_instr k cs, encode_instr k cs⟩
    · exact ⟨wf_percent_iff.2 hbit, rfl⟩
    · exact ⟨rfl, rfl⟩
  | a w =>
    cases h
    exact ⟨rfl, congrArg PortWord.a (aWordOf_fields w)⟩

/-- Decoding to an operation and being its word are one: both round trips in one statement. -/
theorem decode_eq_ok_iff {p : PortWord} {i : Instr} : decode p = .ok i ↔ i.wf = true ∧ encode i = p := by
  refine ⟨encodeOfDecode p i, ?_⟩
  rintro ⟨hwf, rfl⟩
  exact decodeOfEncode i hwf

theorem decodeE_eq_instr_iff {w : EWord} {k : Key} {cs : Bool} :
    decodeE w = .ok (k.instr cs) ↔ eWordOf k.family.cmd cs k.code = w := by
  simpa [decode, wf_instr, encode_instr] using decode_eq_ok_iff (p := .e w) (i := k.instr cs)

theorem decodeE_eq_percent_iff {w : EWord} {cs : Bool} {data : BitVec 16} :
    decodeE w = .ok (.percent cs data) ↔ data.getLsbD 15 = false ∧ eWordOf 6 cs data = w := by
  simpa [decode, wf_percent_iff, encode] using decode_eq_ok_iff (p := .e w) (i := .percent cs data)

theorem decodeE_eq_statusRequest_iff {w : EWord} {cs : Bool} {data : BitVec 16} :
    decodeE w = .ok (.statusRequest cs data) ↔ eWordOf 7 cs data = w := by
  simpa [decode, Instr.wf, encode] using decode_eq_ok_iff (p := .e w) (i := .statusRequest cs data)

/-! ### The rows of the opcode table (R74) -/

/-- The row of a catalog pair: all of `cmd` and `data` is fixed, and `cs` is free. -/
def catalogRow (k : Key) : OpcodeRow :=
  ⟨(k.instr false).mnemonic, eWordOf 15 false 0xFFFF, eWordOf k.family.cmd false k.code⟩

/-- The row of PERCENT: `cmd` and `data[15]` are fixed. -/
def percentRow : OpcodeRow := ⟨"PERCENT", eWordOf 15 false 0x8000, eWordOf 6 false 0⟩

/-- The row of STATUS_REQUEST: `cmd` is fixed. -/
def statusRow : OpcodeRow := ⟨"STATUS_REQUEST", eWordOf 15 false 0, eWordOf 7 false 0⟩

/-- The 16 catalog pairs, family by family. -/
def catalogKeys : List Key :=
  [.pwmFreq, .gateLogic, .maxPwm, .laseOnPowerUp, .mode, .lase].flatMap familyKeys

theorem mem_catalogKeys (k : Key) : k ∈ catalogKeys := by cases k <;> decide

theorem opcodeRows_eq : opcodeRows = catalogKeys.map catalogRow ++ [percentRow, statusRow] := by decide

theorem mem_opcodeRows {r : OpcodeRow} :
    r ∈ opcodeRows ↔ (∃ k, r = catalogRow k) ∨ r = percentRow ∨ r = statusRow := by
  simp [opcodeRows_eq, mem_catalogKeys, eq_comm]

theorem opcodeRow_eq_of_mnemonic_eq :
    ∀ r ∈ opcodeRows, ∀ r' ∈ opcodeRows, r.mnemonic = r'.mnemonic → r = r' := by decide

theorem mnemonic_instr (k : Key) (cs : Bool) : (k.instr cs).mnemonic = (catalogRow k).mnemonic := by cases k <;> rfl

/-- A word belongs to a row when its masked fields are the row's. -/
theorem matches_iff {m : String} {cmdMask cmd : BitVec 4} {dataMask data : BitVec 16} {w : EWord} :
    OpcodeRow.matches ⟨m, eWordOf cmdMask false dataMask, eWordOf cmd false data⟩ w = true ↔
      wordCmd w &&& cmdMask = cmd ∧ wordData w &&& dataMask = data := by
  have hand : w &&& eWordOf cmdMask false dataMask =
      eWordOf (wordCmd w &&& cmdMask) false (wordData w &&& dataMask) := by
    rw [← eWordOf_fields w, eWordOf_and, Bool.and_false, eWordOf_fields]
  rw [OpcodeRow.matches, beq_iff_eq, hand]
  constructor
  · intro h
    obtain ⟨hcmd, -, hdata⟩ := eWordOf_inj h
    exact ⟨hcmd, hdata⟩
  · rintro ⟨rfl, rfl⟩
    rfl

theorem and_cmdMask (cmd : BitVec 4) : cmd &&& 15 = cmd := BitVec.and_allOnes
theorem and_dataMask (data : BitVec 16) : data &&& 0xFFFF = data := BitVec.and_allOnes

theorem and_bit15Mask_eq_zero_iff (data : BitVec 16) : data &&& 0x8000 = 0 ↔ data.getLsbD 15 = false := by
  have hmask : (0x8000 : BitVec 16) = BitVec.twoPow 16 15 := rfl
  rw [hmask, BitVec.and_twoPow]
  cases data.getLsbD 15 <;> decide

theorem catalogRow_matches_iff {k : Key} {w : EWord} :
    (catalogRow k).matches w = true ↔ wordCmd w = k.family.cmd ∧ wordData w = k.code := by
  rw [catalogRow, matches_iff, and_cmdMask, and_dataMask]

theorem percentRow_matches_iff {w : EWord} :
    percentRow.matches w = true ↔ wordCmd w = 6 ∧ (wordData w).getLsbD 15 = false := by
  rw [percentRow, matches_iff, and_cmdMask, and_bit15Mask_eq_zero_iff]

theorem statusRow_matches_iff {w : EWord} : statusRow.matches w = true ↔ wordCmd w = 7 := by
  rw [statusRow, matches_iff, and_cmdMask]
  simp

/-- A word of a row decodes to an operation of the row's mnemonic. -/
theorem decodeE_of_matches {r : OpcodeRow} (hr : r ∈ opcodeRows) {w : EWord} (h : r.matches w = true) :
    ∃ i, decodeE w = .ok i ∧ i.mnemonic = r.mnemonic := by
  obtain ⟨k, rfl⟩ | rfl | rfl := mem_opcodeRows.1 hr
  · obtain ⟨hcmd, hdata⟩ := catalogRow_matches_iff.1 h
    exact ⟨_, decodeE_eq_instr_iff.2 (by rw [← hcmd, ← hdata, eWordOf_fields]), mnemonic_instr k (wordCs w)⟩
  · obtain ⟨hcmd, hbit⟩ := percentRow_matches_iff.1 h
    exact ⟨_, decodeE_eq_percent_iff.2 ⟨hbit, by rw [← hcmd, eWordOf_fields]⟩, rfl⟩
  · exact ⟨_, decodeE_status (shapeOf_status.2 (statusRow_matches_iff.1 h)), rfl⟩

/-- A word that decodes belongs to the row of its operation's mnemonic. -/
theorem matches_of_decodeE {w : EWord} {i : Instr} (h : decodeE w = .ok i) :
    ∃ r ∈ opcodeRows, r.mnemonic = i.mnemonic ∧ r.matches w = true := by
  obtain ⟨k, cs, rfl, rfl⟩ | ⟨cs, data, rfl, hbit, rfl⟩ | ⟨cs, data, rfl, rfl⟩ := decodeE_cases h
  · exact ⟨catalogRow k, mem_opcodeRows.2 (.inl ⟨k, rfl⟩), (mnemonic_instr k cs).symm,
      catalogRow_matches_iff.2 (by simp)⟩
  · exact ⟨percentRow, mem_opcodeRows.2 (.inr (.inl rfl)), rfl,
      percentRow_matches_iff.2 ⟨by simp, by rwa [wordData_eWordOf]⟩⟩
  · exact ⟨statusRow, mem_opcodeRows.2 (.inr (.inr rfl)), rfl, statusRow_matches_iff.2 (by simp)⟩

/-- Settles O19: a decoded word belongs to the row of its mnemonic, and no two rows have one mnemonic. -/
theorem decodeFollowsOpcodeRows : Obligations.DecodeFollowsOpcodeRows := by
  intro r hr w
  constructor
  · exact decodeE_of_matches hr
  · rintro ⟨i, hdec, hi⟩
    obtain ⟨r', hr', hmn, hmatch⟩ := matches_of_decodeE hdec
    rwa [← opcodeRow_eq_of_mnemonic_eq r' hr' r hr (hmn.trans hi)]

/-- Settles O20: a word decodes to one operation, and its mnemonic is that of both rows. -/
theorem opcodeRowsAreDisjoint : Obligations.OpcodeRowsAreDisjoint := by
  intro r hr r' hr' w h h'
  obtain ⟨i, hdec, hi⟩ := decodeE_of_matches hr h
  obtain ⟨i', hdec', hi'⟩ := decodeE_of_matches hr' h'
  obtain rfl : i = i' := Except.ok.inj (hdec.symm.trans hdec')
  exact opcodeRow_eq_of_mnemonic_eq r hr r' hr' (hi.symm.trans hi')

/-! ### The quantities of a percent value (R66, R132) -/

theorem getLsbD_15_iff (data : BitVec 16) : data.getLsbD 15 = true ↔ 2 ^ 15 ≤ data.toNat := by
  rw [← BitVec.msb_eq_getLsbD_last, BitVec.msb_eq_decide, decide_eq_true_iff]

theorem percentTwice_toNat (data : BitVec 16) : (percentTwice data).toNat = data.toNat / 128 := by
  simp only [percentTwice, BitVec.extractLsb'_toNat, Nat.shiftRight_eq_div_pow]
  omega

theorem percentIp_toNat (data : BitVec 16) : (percentIp data).toNat = data.toNat / 256 := by
  simp only [percentIp, BitVec.extractLsb'_toNat, Nat.shiftRight_eq_div_pow]
  omega

theorem percentFr_toNat (data : BitVec 16) : (percentFr data).toNat = data.toNat % 256 := by
  simp [percentFr]

theorem percentDataByte_toNat (data : BitVec 16) : (percentDataByte data).toNat = data.toNat / 128 % 256 := by
  simp [percentDataByte, Nat.shiftRight_eq_div_pow]

/-- Settles O34: each quantity is a quotient or a remainder of `data` by a power of two. -/
theorem percentFieldsAreTruncations : Obligations.PercentFieldsAreTruncations := by
  intro data
  rw [percentTwice_toNat, percentIp_toNat, percentFr_toNat, percentDataByte_toNat, getLsbD_15_iff]
  omega

/-! ### Which words raise which error (R75, R76) -/

theorem decodeE_unrecognized_iff {w : EWord} :
    decodeE w = .error .unrecognizedCommand ↔ shapeOf (wordCmd w) = .bad := by
  refine ⟨fun h => ?_, decodeE_bad⟩
  cases hs : shapeOf (wordCmd w) with
  | catalog f => rw [decodeE_catalog hs] at h; split at h <;> cases h
  | percent => rw [decodeE_percent hs] at h; split at h <;> cases h
  | status => rw [decodeE_status hs] at h; cases h
  | bad => rfl

/-- Settles O21: the shape of no command is that of exactly the codes from 8 on. -/
theorem unrecognizedCommandExactly : Obligations.UnrecognizedCommandExactly := by
  intro w
  rw [decodeE_unrecognized_iff, shapeOf_bad, wordCmd_toNat]

theorem decodeE_invalidData_iff {w : EWord} :
    decodeE w = .error .invalidData ↔
      (∃ f, wordCmd w = Family.cmd f ∧ f.keyOf (wordData w) = none) ∨
      (wordCmd w = 6 ∧ (wordData w).getLsbD 15 = true) := by
  constructor
  · intro h
    cases hs : shapeOf (wordCmd w) with
    | catalog f =>
      rw [decodeE_catalog hs] at h
      cases hk : f.keyOf (wordData w) with
      | none => exact .inl ⟨f, shapeOf_catalog hs, hk⟩
      | some k => rw [hk] at h; cases h
    | percent =>
      rw [decodeE_percent hs] at h
      split at h
      · exact .inr ⟨shapeOf_percent.1 hs, ‹_›⟩
      · cases h
    | status => rw [decodeE_status hs] at h; cases h
    | bad => rw [decodeE_bad hs] at h; cases h
  · rintro (⟨f, hcmd, hkey⟩ | ⟨hcmd, hbit⟩)
    · rw [decodeE_catalog (f := f) (by rw [hcmd, shapeOf_cmd]), hkey]
    · rw [decodeE_percent (shapeOf_percent.2 hcmd), if_pos hbit]

theorem exists_family_iff {P : Family → Prop} :
    (∃ f, P f) ↔ P .pwmFreq ∨ P .gateLogic ∨ P .maxPwm ∨ P .laseOnPowerUp ∨ P .mode ∨ P .lase := by
  constructor
  · rintro ⟨f, h⟩
    cases f <;> simp only [h, true_or, or_true]
  · rintro (h | h | h | h | h | h) <;> exact ⟨_, h⟩

/-- The numbers that are no data code of a family (R65, R76). -/
def IllegalCode : Family → Nat → Prop
  | .pwmFreq, n => n ≠ 5 ∧ n ≠ 10 ∧ n ≠ 20
  | .gateLogic, n => 2 ≤ n
  | .maxPwm, n => n ≠ 95 ∧ n ≠ 99
  | .laseOnPowerUp, n => 2 ≤ n
  | .mode, n => 5 ≤ n
  | .lase, n => 2 ≤ n

theorem keyOf_eq_none_iff (f : Family) (data : BitVec 16) :
    f.keyOf data = none ↔ IllegalCode f data.toNat := by
  cases f <;> simp [Family.keyOf, IllegalCode, BitVec.toNat_eq, ite_eq_iff] <;> omega

/-- Settles O22: the families' clauses in the order of their command codes, then the percent's. -/
theorem invalidDataExactly : Obligations.InvalidDataExactly := by
  intro w
  have hfamily (f : Family) : (wordCmd w = f.cmd ∧ f.keyOf (wordData w) = none) ↔
      w.toNat / 2 ^ 17 = f.cmd.toNat ∧ IllegalCode f (w.toNat % 2 ^ 16) := by
    rw [BitVec.toNat_eq, wordCmd_toNat, keyOf_eq_none_iff, wordData_toNat]
  have hpercent : (wordCmd w = 6 ∧ (wordData w).getLsbD 15 = true) ↔
      w.toNat / 2 ^ 17 = 6 ∧ 2 ^ 15 ≤ w.toNat % 2 ^ 16 := by
    rw [BitVec.toNat_eq, wordCmd_toNat, getLsbD_15_iff, wordData_toNat]
    rfl
  rw [decodeE_invalidData_iff, hpercent]
  simp only [hfamily]
  rw [exists_family_iff]
  simp only [or_assoc]
  rfl

/-! ### How many words have each outcome (R77) -/

/-- The words of command codes 8 to 15. -/
def unrecognizedWords : Set EWord := {w | decodeE w = .error .unrecognizedCommand}

/-- The words of no legal data code. -/
def invalidDataWords : Set EWord := {w | decodeE w = .error .invalidData}

/-- The words of the catalog operations. -/
def catalogWords : Set EWord := {w | ∃ k cs, decodeE w = .ok (Key.instr k cs)}

/-- The words of PERCENT. -/
def percentWords : Set EWord := {w | ∃ cs data, decodeE w = .ok (.percent cs data)}

/-- The words of STATUS_REQUEST. -/
def statusWords : Set EWord := {w | ∃ cs data, decodeE w = .ok (.statusRequest cs data)}

/-- A set of words has as many numbers below `2^21` as words. -/
theorem card_fin_eq_ncard (S : Set EWord) : Nat.card {w : Fin (2 ^ 21) // BitVec.ofFin w ∈ S} = S.ncard :=
  Nat.card_congr (BitVec.equivFin.symm.toEquiv.subtypeEquiv fun _ => Iff.rfl)

/-- The words that an injective choice of fields covers are as many as the choices. -/
theorem ncard_eq_card_of_range {α : Type} {S : Set EWord} {word : α → EWord} (hinj : Function.Injective word)
    (hS : ∀ w, w ∈ S ↔ ∃ x, word x = w) : S.ncard = Nat.card α := by
  obtain rfl : S = Set.range word := Set.ext hS
  exact Set.ncard_range_of_injective hinj

theorem card_bitVec (n : Nat) : Nat.card (BitVec n) = 2 ^ n := by
  rw [Nat.card_congr BitVec.equivFin.toEquiv, Nat.card_fin]

/-- The keys are numbered by their ROM locations (R40). -/
def keyEquivFin : Key ≃ Fin 16 where
  toFun := romIndex
  invFun i := catalogKeys.get (i.cast rfl)
  left_inv k := by cases k <;> rfl
  right_inv := by decide

theorem card_key : Nat.card Key = 16 := by rw [Nat.card_congr keyEquivFin, Nat.card_fin]

theorem key_eq_of_cmd_of_code {k k' : Key} (hcmd : k.family.cmd = k'.family.cmd) (hcode : k.code = k'.code) :
    k = k' := by
  have hfamily : k.family = k'.family := by simpa using congrArg shapeOf hcmd
  have hkey : k.family.keyOf k.code = some k' := by rw [hfamily, hcode, keyOf_code]
  exact Option.some.inj ((keyOf_code k).symm.trans hkey)

theorem ncard_catalogWords : catalogWords.ncard = 32 := by
  have hinj : Function.Injective fun x : Key × Bool => eWordOf x.1.family.cmd x.2 x.1.code := by
    rintro ⟨k, cs⟩ ⟨k', cs'⟩ h
    obtain ⟨hcmd, rfl, hcode⟩ := eWordOf_inj h
    exact congrArg (·, cs) (key_eq_of_cmd_of_code hcmd hcode)
  rw [ncard_eq_card_of_range hinj (by simp [catalogWords, decodeE_eq_instr_iff]), Nat.card_prod, card_key]
  simp

theorem ncard_statusWords : statusWords.ncard = 131072 := by
  have hinj : Function.Injective fun x : Bool × BitVec 16 => eWordOf 7 x.1 x.2 := by
    rintro ⟨cs, data⟩ ⟨cs', data'⟩ h
    obtain ⟨-, rfl, rfl⟩ := eWordOf_inj h
    rfl
  rw [ncard_eq_card_of_range hinj (by simp [statusWords, decodeE_eq_statusRequest_iff]), Nat.card_prod, card_bitVec]
  simp

/-- The data codes below `2^15` are the ones with bit 15 clear. -/
theorem getLsbD_15_eq_false_iff (data : BitVec 16) :
    data.getLsbD 15 = false ↔ ∃ n : Fin (2 ^ 15), BitVec.ofNat 16 n = data := by
  rw [← Bool.not_eq_true, getLsbD_15_iff, Nat.not_le]
  constructor
  · exact fun h => ⟨⟨data.toNat, h⟩, by simp⟩
  · rintro ⟨n, rfl⟩
    rw [BitVec.toNat_ofNat]
    omega

theorem ncard_percentWords : percentWords.ncard = 65536 := by
  have hinj : Function.Injective fun x : Bool × Fin (2 ^ 15) => eWordOf 6 x.1 (BitVec.ofNat 16 x.2) := by
    rintro ⟨cs, n⟩ ⟨cs', n'⟩ h
    obtain ⟨-, rfl, hdata⟩ := eWordOf_inj h
    have hn := congrArg BitVec.toNat hdata
    simp only [BitVec.toNat_ofNat] at hn
    obtain rfl : n = n' := by omega
    rfl
  rw [ncard_eq_card_of_range hinj ?_, Nat.card_prod]
  · simp
  intro w
  constructor
  · rintro ⟨cs, data, h⟩
    obtain ⟨hbit, rfl⟩ := decodeE_eq_percent_iff.1 h
    obtain ⟨n, rfl⟩ := (getLsbD_15_eq_false_iff data).1 hbit
    exact ⟨(cs, n), rfl⟩
  · rintro ⟨⟨cs, n⟩, h⟩
    exact ⟨cs, _, decodeE_eq_percent_iff.2 ⟨(getLsbD_15_eq_false_iff _).2 ⟨n, rfl⟩, h⟩⟩

theorem ncard_unrecognizedWords : unrecognizedWords.ncard = 1048576 := by
  have hinj : Function.Injective fun n : Fin (2 ^ 20) => BitVec.ofNat 21 (2 ^ 20 + n) := by
    intro n n' h
    have hn := congrArg BitVec.toNat h
    simp only [BitVec.toNat_ofNat] at hn
    omega
  rw [ncard_eq_card_of_range hinj ?_, Nat.card_fin]
  · rfl
  intro w
  refine (unrecognizedCommandExactly w).trans ?_
  constructor
  · intro h
    exact ⟨⟨w.toNat - 2 ^ 20, by omega⟩, BitVec.eq_of_toNat_eq (by simp only [BitVec.toNat_ofNat]; omega)⟩
  · rintro ⟨n, rfl⟩
    rw [BitVec.toNat_ofNat]
    omega

theorem instr_ne_percent (k : Key) (cs cs' : Bool) (data : BitVec 16) : k.instr cs ≠ .percent cs' data := by
  cases k <;> exact Instr.noConfusion

theorem instr_ne_statusRequest (k : Key) (cs cs' : Bool) (data : BitVec 16) :
    k.instr cs ≠ .statusRequest cs' data := by
  cases k <;> exact Instr.noConfusion

/-- The words of an operation, by kind. -/
theorem decodeE_ok_iff_mem {w : EWord} :
    (∃ i, decodeE w = .ok i) ↔ w ∈ catalogWords ∪ (percentWords ∪ statusWords) := by
  constructor
  · rintro ⟨i, h⟩
    obtain ⟨k, cs, rfl, -⟩ | ⟨cs, data, rfl, -, -⟩ | ⟨cs, data, rfl, -⟩ := decodeE_cases h
    · exact .inl ⟨k, cs, h⟩
    · exact .inr (.inl ⟨cs, data, h⟩)
    · exact .inr (.inr ⟨cs, data, h⟩)
  · rintro (⟨k, cs, h⟩ | ⟨cs, data, h⟩ | ⟨cs, data, h⟩) <;> exact ⟨_, h⟩

theorem ncard_operationWords : (catalogWords ∪ (percentWords ∪ statusWords)).ncard = 196640 := by
  have hps : Disjoint percentWords statusWords := Set.disjoint_left.2 fun w ⟨_, _, h⟩ ⟨_, _, h'⟩ =>
    Instr.noConfusion (Except.ok.inj (h.symm.trans h'))
  have hc : Disjoint catalogWords (percentWords ∪ statusWords) := by
    refine Set.disjoint_left.2 ?_
    rintro w ⟨k, cs, h⟩ (⟨cs', data, h'⟩ | ⟨cs', data, h'⟩)
    · exact instr_ne_percent k cs cs' data (Except.ok.inj (h.symm.trans h'))
    · exact instr_ne_statusRequest k cs cs' data (Except.ok.inj (h.symm.trans h'))
  rw [Set.ncard_union_eq hc, Set.ncard_union_eq hps, ncard_catalogWords, ncard_percentWords, ncard_statusWords]

/-- The words that are neither operations nor of an unknown command. -/
theorem ncard_invalidDataWords : invalidDataWords.ncard = 851936 := by
  have hcompl : invalidDataWords = (unrecognizedWords ∪ (catalogWords ∪ (percentWords ∪ statusWords)))ᶜ := by
    ext w
    rw [Set.mem_compl_iff, Set.mem_union, ← decodeE_ok_iff_mem]
    change decodeE w = _ ↔ ¬(decodeE w = _ ∨ _)
    cases decodeE w with
    | error e => cases e <;> simp
    | ok i => simp
  have hdisj : Disjoint unrecognizedWords (catalogWords ∪ (percentWords ∪ statusWords)) := by
    refine Set.disjoint_left.2 fun w h h' => ?_
    obtain ⟨i, hi⟩ := decodeE_ok_iff_mem.2 h'
    cases h.symm.trans hi
  rw [hcompl, Set.ncard_compl, card_bitVec, Set.ncard_union_eq hdisj, ncard_unrecognizedWords, ncard_operationWords]
  rfl

/-- Settles O24: four kinds of words are counted by their free fields, and InvalidData is the rest of the `2^21`. -/
theorem wordCountsByOutcome : Obligations.WordCountsByOutcome :=
  ⟨(card_fin_eq_ncard unrecognizedWords).trans ncard_unrecognizedWords,
    (card_fin_eq_ncard invalidDataWords).trans ncard_invalidDataWords,
    (card_fin_eq_ncard catalogWords).trans ncard_catalogWords,
    (card_fin_eq_ncard percentWords).trans ncard_percentWords,
    (card_fin_eq_ncard statusWords).trans ncard_statusWords⟩

/-! ### The words for a source-level request (R69) -/

theorem sourceKey_family {f : Family} {d : SourceData} {k : Key} (h : sourceKey f d = some k) : k.family = f := by
  have hfamily : ∀ k ∈ familyKeys f, k.family = f := by cases f <;> decide
  exact hfamily k (List.mem_of_find?_eq_some h)

theorem sourceShape_eq_percent {command : String} (h : sourceShape command = .percent) : command = "percent" := by
  unfold sourceShape at h
  split_ifs at h
  assumption

/-- Every shape has a command code (R64). -/
theorem exists_shapeOf_eq (sh : Shape) : ∃ cmd, shapeOf cmd = sh := by
  cases sh with
  | catalog f => exact ⟨f.cmd, shapeOf_cmd f⟩
  | percent => exact ⟨6, rfl⟩
  | status => exact ⟨7, rfl⟩
  | bad => exact ⟨8, rfl⟩

/-- A catalog family has a code for every source value: the key's, or one that is illegal in every family. -/
theorem exists_codesData_catalog (f : Family) (d : SourceData) : ∃ data, codesData (.catalog f) d data := by
  simp only [codesData]
  cases sourceKey f d with
  | some k => exact ⟨k.code, rfl⟩
  | none => exact ⟨0xFFFF, by cases f <;> rfl⟩

theorem exists_codesData_percent {n m : Nat} (h : n < 256 * (m + 1)) :
    ∃ data, codesData .percent (.number n m) data := by
  have hlt : 256 * n / (m + 1) < 2 ^ 16 := Nat.div_lt_of_lt_mul (by omega)
  exact ⟨BitVec.ofNat 16 (256 * n / (m + 1)), h, by rw [BitVec.toNat_ofNat, Nat.mod_eq_of_lt hlt]⟩

/-- Settles O54: a word of the request's shape and flag, with a data code for its value. -/
theorem everyPresentableRequestHasWord : Obligations.EveryPresentableRequestHasWord := by
  intro r hpercent
  obtain ⟨cmd, hcmd⟩ := exists_shapeOf_eq (sourceShape r.command)
  obtain ⟨data, hdata⟩ : ∃ data, codesData (sourceShape r.command) r.data data := by
    cases hs : sourceShape r.command with
    | catalog f => exact exists_codesData_catalog f r.data
    | percent =>
      obtain ⟨n, m, hd, hlt⟩ := hpercent (sourceShape_eq_percent hs)
      rw [hd]
      exact exists_codesData_percent hlt
    | status => exact ⟨0, trivial⟩
    | bad => exact ⟨0, trivial⟩
  exact ⟨eWordOf cmd r.checksumEnabled data, by simpa [codes] using ⟨hcmd, hdata⟩⟩

/-! ### The port against the source's encode (R110, R130 to R136, R150, R161, R162) -/

theorem sourceEncode_catalog {rom : Memory} {r : SourceRequest} {f : Family} {k : Key}
    (hs : sourceShape r.command = .catalog f) (hk : sourceKey f r.data = some k) :
    sourceEncode rom r = some (.ok ([Config.startByte, rom.read (romIndex k)] ++
      if r.checksumEnabled then [not8 (rom.read (romIndex k)).toNat] else [])) := by
  simp only [sourceEncode, hs, hk]

theorem sourceEncode_catalog_none {rom : Memory} {r : SourceRequest} {f : Family}
    (hs : sourceShape r.command = .catalog f) (hk : sourceKey f r.data = none) :
    sourceEncode rom r = some (.error .invalidData) := by
  simp only [sourceEncode, hs, hk]

theorem codesData_catalog {f : Family} {d : SourceData} {k : Key} {data : BitVec 16} (hk : sourceKey f d = some k)
    (h : codesData (.catalog f) d data) : data = k.code := by
  simpa only [codesData, hk] using h

theorem codesData_catalog_none {f : Family} {d : SourceData} {data : BitVec 16} (hk : sourceKey f d = none)
    (h : codesData (.catalog f) d data) : f.keyOf data = none := by
  simpa only [codesData, hk] using h

theorem codesData_percent {d : SourceData} {data : BitVec 16} (h : codesData .percent d data) :
    ∃ n m, d = .number n m ∧ data.toNat = 256 * n / (m + 1) := by
  cases d with
  | number n m => exact ⟨n, m, rfl, h.2⟩
  | negative => exact h.elim
  | text s => exact h.elim
  | flag b => exact h.elim

/-- `not8` reads its operand modulo 256, so the 10 bits of `nc_sum` lose nothing (R10, R107). -/
theorem not8_percentNcSum (ip : Byte) :
    not8 (percentNcSum ip).toNat = not8 (cla10 [Config.setPercentByte.toNat, ip.toNat]) := by
  rw [percentNcSum, BitVec.toNat_ofNat, not8, not8, Nat.mod_mod_of_dvd _ (by decide)]

/-- On `trunc(256 x)` the percent command is the source's on `x`. -/
theorem sourcePercent_eq_percentCommand {n m : Nat} {data : BitVec 16} (h : data.toNat = 256 * n / (m + 1))
    (cs : Bool) : sourcePercent (.number n m) cs = some (percentCommand cs data) := by
  have htwice : 2 * n / (m + 1) = data.toNat / 128 := by
    rw [h, Nat.div_div_eq_div_mul, Nat.mul_comm (m + 1), show 256 * n = 128 * (2 * n) by omega,
      Nat.mul_div_mul_left _ _ (by decide)]
  have hip : n / (m + 1) = (percentIp data).toNat := by
    rw [percentIp_toNat, h, Nat.div_div_eq_div_mul, Nat.mul_comm (m + 1), Nat.mul_div_mul_left _ _ (by decide)]
  have hbyte : BitVec.ofNat 8 (data.toNat / 128) = percentDataByte data :=
    BitVec.eq_of_toNat_eq (by rw [percentDataByte_toNat, BitVec.toNat_ofNat])
  have hout : 256 ≤ data.toNat / 128 ↔ data.getLsbD 15 = true := by rw [getLsbD_15_iff]; omega
  rw [sourcePercent, htwice, hip, hbyte]
  cases hbit : data.getLsbD 15 with
  | true => rw [if_pos (hout.2 hbit), percentCommand_out hbit]
  | false => rw [if_neg (by rw [hout, hbit]; exact Bool.false_ne_true), percentCommand_in hbit, not8_percentNcSum]

/-- Settles O53, by the shape of the request's command. -/
theorem portRefinesSourceEncode : Obligations.PortRefinesSourceEncode := by
  rintro rom r w ⟨hshape, hcs, hdata⟩
  cases hs : sourceShape r.command with
  | catalog f =>
    rw [hs] at hshape hdata
    rw [encoderPort_catalog hshape]
    cases hk : sourceKey f r.data with
    | some k =>
      obtain rfl := sourceKey_family hk
      rw [sourceEncode_catalog hs hk, codesData_catalog hk hdata, catalogCommand_code, hcs]
    | none => rw [sourceEncode_catalog_none hs hk, catalogCommand_illegal (codesData_catalog_none hk hdata)]
  | percent =>
    rw [hs] at hshape hdata
    obtain ⟨n, m, hd, hnum⟩ := codesData_percent hdata
    simp only [sourceEncode, hs]
    rw [encoderPort_percent hshape, hcs, hd, sourcePercent_eq_percentCommand hnum]
  | status =>
    rw [encoderPort_status (hshape.trans hs), statusCommand_eq]
    simp only [sourceEncode, hs]
  | bad =>
    rw [encoderPort_bad (hshape.trans hs)]
    simp only [sourceEncode, hs]

/-! ### The table's words (R60, R61, R74) -/

theorem eq_ok_of_toOption_eq_some {r : Except ErrorKind Instr} {i : Instr} (h : r.toOption = some i) : r = .ok i := by
  cases r with
  | ok j => exact congrArg Except.ok (Option.some.inj h)
  | error e => cases h

/-- Settles O12: the placed word is the next presentation, alone on its port. -/
theorem placedWordRunsNext : Obligations.PlacedWordRunsNext := by
  intro s nbits w i h
  obtain ⟨p, hp, hdec⟩ : ∃ p, tablePortWord nbits w = some p ∧ decode p = .ok i := by
    unfold decodeTableWord at h
    split at h
    · exact ⟨_, ‹_›, eq_ok_of_toOption_eq_some h⟩
    · cases h
  have hplace : s.withFetchWord nbits w = s.placeWord p := by simp only [State.withFetchWord, hp]
  rw [hplace]
  obtain ⟨hE, hA⟩ := stepWithOnePortDriven
  cases p with
  | e x => rw [if_pos (decodeE_onEPort hdec), hE _ x 0 i rfl hdec]
  | a x =>
    have hport : i.onEPort = false := by cases hdec; rfl
    rw [hport, if_neg Bool.false_ne_true, hA _ 0 x i rfl hdec]

/-- Settles O23: the nine words are closed, and the decoder computes. -/
theorem tableWordsDecodeAsPrinted : Obligations.TableWordsDecodeAsPrinted := by
  unfold Obligations.TableWordsDecodeAsPrinted
  decide

end Sys2Proof.Machine
end

section
/-! Proofs of the adder family: the digits of a value and of the carry-less sum, the laws that follow digit by digit, what
the dropped carries are worth, and ADDNC (spec/40_adder.md R90 to R106, R168). -/

namespace Sys2Proof.Machine

/-! ### The digit length (R91) -/

theorem len10_le_iff {v n : Nat} : len10 v ≤ n ↔ v < 10 ^ n := by
  induction n generalizing v with
  | zero =>
    rcases eq_or_ne v 0 with rfl | h
    · simp
    · rw [len10_of_ne_zero h]
      omega
  | succ n ih =>
    rcases eq_or_ne v 0 with rfl | h
    · simp
    · rw [len10_of_ne_zero h, Nat.add_comm, Nat.add_le_add_iff_right, ih, Nat.div_lt_iff_lt_mul (by decide), pow_succ]

theorem lt_pow_len10 (v : Nat) : v < 10 ^ len10 v := len10_le_iff.1 le_rfl

/-- Settles O42: `len10 v` is at most `n` exactly when `v < 10^n`. -/
theorem digitLengthIsLeastPower : Obligations.DigitLengthIsLeastPower :=
  fun v _ => ⟨lt_pow_len10 v, fun _ => len10_le_iff.2⟩

theorem maxLen10_le_iff {vs : List Nat} {n : Nat} : maxLen10 vs ≤ n ↔ ∀ v ∈ vs, v < 10 ^ n := by
  induction vs with
  | nil => simp
  | cons v vs ih => simp [ih, len10_le_iff]

/-! ### Digits (R92)

The formula gives 0 at position 0 too, so most facts need no bound on the position. -/

@[simp] theorem digit_zero_right (v : Nat) : digit v 0 = 0 := by simp [digit, Nat.mod_one]

theorem digit_lt_ten (v p : Nat) : digit v p < 10 := by
  cases p with
  | zero => simp
  | succ p => rw [digit_succ]; exact Nat.mod_lt _ (by decide)

@[simp] theorem digit_mod_ten (v p : Nat) : digit v p % 10 = digit v p := Nat.mod_eq_of_lt (digit_lt_ten v p)

theorem digit_eq_zero_of_len10_lt {v p : Nat} (h : len10 v < p) : digit v p = 0 := by
  obtain ⟨p, rfl⟩ := Nat.exists_eq_succ_of_ne_zero (Nat.ne_zero_of_lt h)
  rw [digit_succ, Nat.div_eq_of_lt (len10_le_iff.1 (Nat.le_of_lt_succ h)), Nat.zero_mod]

/-! ### The value of a sequence of positions -/

/-- What the entries `f 1` to `f n` are worth at the decimal positions 1 to `n`; an entry may exceed 9. -/
def placeValue (f : Nat → Nat) (n : Nat) : Nat := ((List.range n).map fun i => f (i + 1) * 10 ^ i).sum

@[simp] theorem placeValue_zero (f : Nat → Nat) : placeValue f 0 = 0 := rfl

theorem placeValue_succ (f : Nat → Nat) (n : Nat) : placeValue f (n + 1) = placeValue f n + f (n + 1) * 10 ^ n :=
  List.sum_range_succ _ n

theorem placeValue_add (f g : Nat → Nat) (n : Nat) :
    placeValue (fun p => f p + g p) n = placeValue f n + placeValue g n := by
  simp only [placeValue, add_mul, List.sum_map_add]

theorem placeValue_mul_left (c : Nat) (f : Nat → Nat) (n : Nat) :
    placeValue (fun p => c * f p) n = c * placeValue f n := by
  simp only [placeValue, mul_assoc, List.sum_map_mul_left]

theorem placeValue_eq_zero_iff {f : Nat → Nat} {n : Nat} : placeValue f n = 0 ↔ ∀ i < n, f (i + 1) = 0 := by
  simp [placeValue, List.sum_eq_zero_iff]

theorem placeValue_digit (v n : Nat) : placeValue (digit v) n = v % 10 ^ n := by
  induction n with
  | zero => simp [Nat.mod_one]
  | succ n ih => rw [placeValue_succ, ih, digit_succ, Nat.mod_pow_succ, Nat.mul_comm]

/-- The digits of a value rebuild it (R92). -/
theorem placeValue_digit_of_len10_le {v n : Nat} (h : len10 v ≤ n) : placeValue (digit v) n = v := by
  rw [placeValue_digit, Nat.mod_eq_of_lt (len10_le_iff.1 h)]

/-- Settles O43: the formula is the definition, and the digits rebuild the value. -/
theorem digitExtraction : Obligations.DigitExtraction := fun v p _ =>
  ⟨rfl, Nat.le_of_lt_succ (digit_lt_ten v p), digit_eq_zero_of_len10_lt, (placeValue_digit_of_len10_le le_rfl).symm⟩

/-- Two values with the same digits are equal. -/
theorem eq_of_digit_eq {a b : Nat} (h : ∀ p, digit a p = digit b p) : a = b := by
  have hdigit : digit a = digit b := funext h
  rw [← placeValue_digit_of_len10_le (le_max_left (len10 a) (len10 b)), hdigit,
    placeValue_digit_of_len10_le (le_max_right _ _)]

/-! ### Positional sums (R93) -/

@[simp] theorem posSum_nil (p : Nat) : posSum [] p = 0 := rfl

/-- An input without the position is left out of the sum, and its digit there is 0. -/
@[simp] theorem posSum_cons (v : Nat) (vs : List Nat) (p : Nat) : posSum (v :: vs) p = digit v p + posSum vs p := by
  by_cases h : p ≤ len10 v
  · simp [posSum, h]
  · simp [posSum, h, digit_eq_zero_of_len10_lt (Nat.lt_of_not_le h)]

theorem posSum_eq_sum (vs : List Nat) (p : Nat) : posSum vs p = (vs.map fun v => digit v p).sum := by
  induction vs with
  | nil => rfl
  | cons v vs ih => simp [ih]

theorem posSum_le (vs : List Nat) (p : Nat) : posSum vs p ≤ 9 * vs.length := by
  induction vs with
  | nil => simp
  | cons v vs ih =>
    have := digit_lt_ten v p
    rw [posSum_cons, List.length_cons]
    omega

/-- Settles O44: an input left out contributes 0. -/
theorem positionalSumOverEveryInput : Obligations.PositionalSumOverEveryInput :=
  fun vs p _ => ⟨posSum_eq_sum vs p, posSum_le vs p⟩

theorem posSum_perm {vs ws : List Nat} (h : vs.Perm ws) (p : Nat) : posSum vs p = posSum ws p := by
  rw [posSum_eq_sum, posSum_eq_sum, (h.map _).sum_eq]

theorem posSum_replicate (n a p : Nat) : posSum (List.replicate n a) p = n * digit a p := by
  simp [posSum_eq_sum]

@[simp] theorem posSum_zero_right (vs : List Nat) : posSum vs 0 = 0 := by simp [posSum_eq_sum]

theorem posSum_eq_zero_of_maxLen10_lt {vs : List Nat} {p : Nat} (h : maxLen10 vs < p) : posSum vs p = 0 := by
  induction vs with
  | nil => rfl
  | cons v vs ih =>
    obtain ⟨hv, hvs⟩ := max_lt_iff.1 h
    rw [posSum_cons, digit_eq_zero_of_len10_lt hv, ih hvs]

/-- The positional sums, unreduced, are worth the ordinary sum (R104). -/
theorem placeValue_posSum {vs : List Nat} {n : Nat} (h : maxLen10 vs ≤ n) : placeValue (posSum vs) n = vs.sum := by
  induction vs with
  | nil => simp [placeValue_eq_zero_iff]
  | cons v vs ih =>
    obtain ⟨hv, hvs⟩ := max_le_iff.1 h
    simp only [funext (posSum_cons v vs), placeValue_add, placeValue_digit_of_len10_le hv, ih hvs, List.sum_cons]

/-! ### Each digit of the sum (R90, R94 to R96) -/

theorem accumulate_eq_placeValue (vs : List Nat) (n : Nat) :
    accumulate vs n = placeValue (fun p => posSum vs p % 10) n := by
  induction n with
  | zero => rfl
  | succ n ih => rw [accumulate_succ, placeValue_succ, ih]

/-- Later positions leave the earlier ones as they are: there is no carry (R95). -/
theorem accumulate_mod_pow {m n : Nat} (vs : List Nat) (h : m ≤ n) : accumulate vs n % 10 ^ m = accumulate vs m := by
  induction n, h using Nat.le_induction with
  | base => exact Nat.mod_eq_of_lt (accumulate_lt vs m)
  | succ n hmn ih =>
    have hdvd : 10 ^ m ∣ posSum vs (n + 1) % 10 * 10 ^ n := Dvd.dvd.mul_left (pow_dvd_pow 10 hmn) _
    rw [accumulate_succ, Nat.add_mod, Nat.mod_eq_zero_of_dvd hdvd, Nat.add_zero, Nat.mod_mod, ih]

theorem digit_accumulate {p n : Nat} (vs : List Nat) (h : p < n) :
    digit (accumulate vs n) (p + 1) = posSum vs (p + 1) % 10 := by
  rw [digit, accumulate_mod_pow vs h, accumulate_succ, Nat.add_sub_cancel,
    Nat.add_mul_div_right _ _ (by positivity), Nat.div_eq_of_lt (accumulate_lt vs p), Nat.zero_add]

theorem cla10_lt (vs : List Nat) : cla10 vs < 10 ^ maxLen10 vs := accumulate_lt vs _

theorem cla10_lt_of_forall_lt {vs : List Nat} {n : Nat} (h : ∀ v ∈ vs, v < 10 ^ n) : cla10 vs < 10 ^ n :=
  (cla10_lt vs).trans_le (Nat.pow_le_pow_right (by decide) (maxLen10_le_iff.2 h))

@[simp] theorem digit_cla10 (vs : List Nat) (p : Nat) : digit (cla10 vs) p = posSum vs p % 10 := by
  rcases p with - | p
  · simp
  rcases lt_or_ge p (maxLen10 vs) with h | h
  · exact digit_accumulate vs h
  · have hlen : len10 (cla10 vs) < p + 1 := Nat.lt_succ_of_le ((len10_le_iff.2 (cla10_lt vs)).trans h)
    rw [digit_eq_zero_of_len10_lt hlen, posSum_eq_zero_of_maxLen10_lt (Nat.lt_succ_of_le h)]

/-- Settles O41: the digit is the positional sum modulo 10, which runs over every input. -/
theorem cla10AddsEachDigitModuloTen : Obligations.Cla10AddsEachDigitModuloTen :=
  fun vs p _ _ => by rw [digit_cla10, posSum_eq_sum]

/-- Two lists whose positional sums agree modulo 10 have the same carry-less sum: the laws are proved digit by digit. -/
theorem cla10_eq_of_posSum_mod_eq {vs ws : List Nat} (h : ∀ p, posSum vs p % 10 = posSum ws p % 10) :
    cla10 vs = cla10 ws :=
  eq_of_digit_eq fun p => by rw [digit_cla10, digit_cla10, h p]

/-! ### The range (R97) -/

theorem cla10_pair_lt {n a b : Nat} (ha : a < 10 ^ n) (hb : b < 10 ^ n) : cla10 [a, b] < 10 ^ n :=
  cla10_lt_of_forall_lt (by simp [ha, hb])

theorem cla10_pair_le_of_lt_two_pow {a b : Nat} (ha : a < 2 ^ 16) (hb : b < 2 ^ 16) : cla10 [a, b] ≤ 99999 :=
  Nat.le_of_lt_succ (cla10_pair_lt (n := 5) (by omega) (by omega))

/-- Settles O45: no carry leaves the longest input's positions. -/
theorem cla10RangeBound : Obligations.Cla10RangeBound :=
  ⟨fun vs _ => Nat.le_sub_one_of_lt (cla10_lt vs), fun _ _ => cla10_pair_le_of_lt_two_pow, by decide⟩

/-! ### The identity and the group laws (R98, R99, R103) -/

theorem cla10_singleton (v : Nat) : cla10 [v] = v := eq_of_digit_eq fun p => by simp

theorem cla10_zero_left (v : Nat) : cla10 [0, v] = v := eq_of_digit_eq fun p => by simp

theorem cla10_perm {vs ws : List Nat} (h : vs.Perm ws) : cla10 vs = cla10 ws :=
  cla10_eq_of_posSum_mod_eq fun p => by rw [posSum_perm h]

theorem cla10_swap (a b : Nat) : cla10 [a, b] = cla10 [b, a] := cla10_perm (List.Perm.swap b a [])

theorem cla10_zero_right (v : Nat) : cla10 [v, 0] = v := (cla10_swap v 0).trans (cla10_zero_left v)

/-- Settles O46: adding the digit 0 changes no digit. -/
theorem cla10ZeroAndSingleInput : Obligations.Cla10ZeroAndSingleInput :=
  fun v => ⟨cla10_zero_left v, cla10_zero_right v, cla10_singleton v, cla10_zero_left 0⟩

/-- A list may be summed first and its sum put in its place. -/
theorem cla10_cons_cla10 (vs ws : List Nat) : cla10 (cla10 vs :: ws) = cla10 (vs ++ ws) :=
  cla10_eq_of_posSum_mod_eq fun p => by simp [posSum_eq_sum, Nat.add_mod]

theorem cla10_nested_right (a b c : Nat) : cla10 [a, cla10 [b, c]] = cla10 [a, b, c] := by
  rw [cla10_swap, cla10_cons_cla10]
  exact cla10_perm (List.perm_append_comm (l₁ := [b, c]) (l₂ := [a]))

/-- Law (e) of R103: ten times a digit is 0 modulo 10. -/
theorem cla10_replicate_ten (a : Nat) : cla10 (List.replicate 10 a) = 0 :=
  eq_of_digit_eq fun p => by rw [digit_cla10, posSum_replicate, Nat.mul_mod_right, digit_zero_left]

/-- The digit-wise inverse of `a`: nine copies of it, which a tenth completes to 0. -/
def digitInverse (a : Nat) : Nat := cla10 (List.replicate 9 a)

theorem digitInverse_lt (a : Nat) : digitInverse a < 10 ^ len10 a :=
  cla10_lt_of_forall_lt fun _ hv => List.eq_of_mem_replicate hv ▸ lt_pow_len10 a

theorem digit_digitInverse (a p : Nat) : digit (digitInverse a) p = (10 - digit a p) % 10 := by
  have := digit_lt_ten a p
  rw [digitInverse, digit_cla10, posSum_replicate]
  omega

theorem cla10_digitInverse (a : Nat) : cla10 [a, digitInverse a] = 0 :=
  calc cla10 [a, digitInverse a] = cla10 [digitInverse a, a] := cla10_swap _ _
    _ = cla10 (List.replicate 9 a ++ [a]) := cla10_cons_cla10 _ _
    _ = cla10 (List.replicate 10 a) := by rw [← List.replicate_succ']
    _ = 0 := cla10_replicate_ten a

/-! ### The dropped carries (R104) -/

/-- What the positions drop: the tens of each positional sum, each worth ten times its position. -/
def droppedCarries (vs : List Nat) : Nat := 10 * placeValue (fun p => posSum vs p / 10) (maxLen10 vs)

theorem sum_eq_cla10_add_droppedCarries (vs : List Nat) : vs.sum = cla10 vs + droppedCarries vs := by
  rw [droppedCarries, cla10, accumulate_eq_placeValue, ← placeValue_mul_left, ← placeValue_add]
  simp only [Nat.mod_add_div]
  exact (placeValue_posSum le_rfl).symm

theorem droppedCarries_eq_sum (vs : List Nat) :
    droppedCarries vs = ((List.range (maxLen10 vs)).map fun i => posSum vs (i + 1) / 10 * 10 ^ (i + 1)).sum := by
  simp only [droppedCarries, placeValue, ← List.sum_map_mul_left, pow_succ', mul_left_comm 10]

theorem droppedCarries_eq_zero_iff {vs : List Nat} : droppedCarries vs = 0 ↔ ∀ p, posSum vs p ≤ 9 := by
  have hsmall (p : Nat) : posSum vs p / 10 = 0 ↔ posSum vs p ≤ 9 := by omega
  rw [droppedCarries, Nat.mul_eq_zero, placeValue_eq_zero_iff]
  simp only [hsmall, OfNat.ofNat_ne_zero, false_or]
  refine ⟨fun h p => ?_, fun h i _ => h (i + 1)⟩
  rcases p with - | p
  · simp
  rcases lt_or_ge p (maxLen10 vs) with hp | hp
  · exact h p hp
  · simp [posSum_eq_zero_of_maxLen10_lt (Nat.lt_succ_of_le hp)]

theorem cla10_eq_sum_iff {vs : List Nat} : cla10 vs = vs.sum ↔ ∀ p, posSum vs p ≤ 9 := by
  rw [← droppedCarries_eq_zero_iff, sum_eq_cla10_add_droppedCarries, Nat.left_eq_add]

/-- Settles O48: the positional sums are worth the ordinary sum, and their tens are what the positions drop. -/
theorem cla10DiffersFromSumByDroppedCarries : Obligations.Cla10DiffersFromSumByDroppedCarries := by
  intro vs _
  have hsum := sum_eq_cla10_add_droppedCarries vs
  have hdvd : 10 ∣ droppedCarries vs := Dvd.intro _ rfl
  refine ⟨droppedCarries_eq_sum vs ▸ hsum, (placeValue_posSum le_rfl).symm, ?_, ?_, ?_, ?_⟩
  · omega
  · rwa [hsum, Nat.add_sub_cancel_left]
  · omega
  · rintro ⟨p, -, hp⟩ heq
    have := cla10_eq_sum_iff.1 heq p
    omega

/-- Law (f) of R103, over the positions the spec counts. -/
theorem cla10_pair_eq_add_iff (a b : Nat) : cla10 [a, b] = a + b ↔ ∀ p, 1 ≤ p → digit a p + digit b p ≤ 9 := by
  have hiff : cla10 [a, b] = a + b ↔ ∀ p, digit a p + digit b p ≤ 9 := by
    simpa using cla10_eq_sum_iff (vs := [a, b])
  refine hiff.trans ⟨fun h p _ => h p, fun h p => ?_⟩
  cases p with
  | zero => simp
  | succ p => exact h _ p.succ_pos

/-- Settles O47: each law holds digit by digit; the inverse of `a` is nine copies of it. -/
theorem cla10GroupLaws : Obligations.Cla10GroupLaws :=
  ⟨fun _ _ _ => cla10_pair_lt, fun _ _ => cla10_perm,
    fun a b c => ⟨cla10_nested_right a b c, cla10_cons_cla10 [a, b] [c]⟩, cla10_zero_left,
    fun a => ⟨digitInverse a, digitInverse_lt a, fun p _ _ => digit_digitInverse a p, cla10_digitInverse a⟩,
    by decide, cla10_replicate_ten, cla10_pair_eq_add_iff⟩

/-! ### ADDNC (R63, R105, R106, R168) -/

theorem cla10_operands_le (op0 op1 : BitVec 16) : cla10 [op0.toNat, op1.toNat] ≤ 99999 :=
  cla10_pair_le_of_lt_two_pow op0.isLt op1.isLt

/-- 17 bits hold the sum of any operands (R63). -/
theorem addncSum_toNat (op0 op1 : BitVec 16) : (addncSum op0 op1).toNat = cla10 [op0.toNat, op1.toNat] := by
  have := cla10_operands_le op0 op1
  rw [addncSum, BitVec.toNat_ofNat, Nat.mod_eq_of_lt (by omega)]

theorem addncSum_swap (op0 op1 : BitVec 16) : addncSum op0 op1 = addncSum op1 op0 := by
  rw [addncSum, addncSum, cla10_swap]

theorem decode_a_eq (w : AWord) :
    decode (.a w) = .ok (.addnc (BitVec.ofNat 16 (w.toNat / 2 ^ 16)) (BitVec.ofNat 16 (w.toNat % 2 ^ 16))) := by
  rw [← wordOp0_toNat, ← wordOp1_toNat, BitVec.ofNat_toNat, BitVec.ofNat_toNat]
  simp only [BitVec.setWidth_eq]
  rfl

/-- Settles O40: the sum fits the 17 bits, and its corner cases are the adder's laws. -/
theorem addncAnswersCarryLessSum : Obligations.AddncAnswersCarryLessSum := by
  refine ⟨fun s op0 op1 => ⟨_, exec_addnc op0 op1 s, rfl, addncSum_toNat op0 op1, ?_, ?_, ?_, ?_⟩, decode_a_eq,
    by decide⟩
  · rw [State.answerSum_sSum, addncSum_toNat]
    exact cla10_operands_le op0 op1
  · rw [exec_addnc, addncSum_swap]
  · rintro rfl
    rw [State.answerSum_sSum, addncSum_toNat]
    exact cla10_zero_left _
  · rintro rfl p -
    simp [addncSum_toNat, two_mul]

/-- Settles O51: ADDNC puts its sum on the A port. -/
theorem adderChangesOnlySum : Obligations.AdderChangesOnlySum := by
  intro s op0 op1 t h
  rw [exec_addnc, Host.Outcome.next.injEq] at h
  subst h
  simp [SameButSum]

end Sys2Proof.Machine
end

section
/-! Proofs of the catalog family: what a key answers, with and without the checksum byte, and what the words of a family
decode to (spec/41_catalog_commands.md R110 to R118). -/

namespace Sys2Proof.Machine

/-! ### The complement of a byte (R10, R111) -/

theorem not8_eq_not (b : Byte) : not8 b.toNat = ~~~b := (not8IsOnesComplement.2 b).2

theorem byte_toNat_add_toNat_not (b : Byte) : b.toNat + (~~~b).toNat = 255 := by
  rw [BitVec.toNat_not]; omega

theorem byte_ne_not (b : Byte) : b ≠ ~~~b := by
  rw [Ne, BitVec.toNat_eq, BitVec.toNat_not]
  omega

theorem byte_sub_eq_not (b : Byte) : 255 - b = ~~~b := by
  have hsum := byte_toNat_add_toNat_not b
  bv_omega

theorem byte_xor_not (b : Byte) : b ^^^ ~~~b = 0xFF := by
  rw [← BitVec.xor_allOnes, ← BitVec.xor_assoc, BitVec.xor_self, BitVec.zero_xor]
  rfl

/-! ### What a key answers (R110, R111) -/

/-- Layout L2 of R70. -/
theorem exec_instr_false (k : Key) (s : State) :
    exec (k.instr false) s = .next (s.respond [Config.startByte, s.rom.read (romIndex k)]) := by
  rw [exec_catalog, catalogCommand_code]
  rfl

/-- Layout L3C of R70. -/
theorem exec_instr_true (k : Key) (s : State) :
    exec (k.instr true) s =
      .next (s.respond [Config.startByte, s.rom.read (romIndex k), ~~~s.rom.read (romIndex k)]) := by
  rw [exec_catalog, catalogCommand_code, not8_eq_not]
  rfl

theorem catalogAnswers_instr (k : Key) : CatalogAnswers k.instr (romIndex k) := by
  intro s
  refine ⟨exec_instr_false k s, ?_⟩
  rw [exec_instr_true, byte_sub_eq_not]
  rfl

/-! ### The words of a family (R65, R74, R76) -/

/-- The table of a command's legal operations is that of its family's keys. -/
theorem familyDecodes_of_keyOf {f : Family} {legal : BitVec 16 → Option (Bool → Instr)}
    (h : ∀ data, legal data = (f.keyOf data).map Key.instr) : FamilyDecodes f.cmd legal := by
  intro cs data
  change decodeE (eWordOf f.cmd cs data) = _
  rw [decodeE_catalog (f := f) (by simp), wordData_eWordOf, wordCs_eWordOf, h]
  cases f.keyOf data <;> rfl

theorem decodeE_illegalCode {f : Family} {data : BitVec 16} (h : f.keyOf data = none) (cs : Bool) :
    decodeE (eWordOf f.cmd cs data) = .error .invalidData := by
  rw [decodeE_catalog (f := f) (by simp), wordData_eWordOf, h]

/-! ### The obligations -/

/-- Settles O25: each key's answer, and the keys' codes 5, 10, 20. -/
theorem pwmFreqAnswersCatalogByte : Obligations.PwmFreqAnswersCatalogByte := by
  refine ⟨catalogAnswers_instr .pwmFreq5, catalogAnswers_instr .pwmFreq10, catalogAnswers_instr .pwmFreq20,
    familyDecodes_of_keyOf (f := .pwmFreq) fun data => ?_⟩
  rw [Family.keyOf]
  split_ifs <;> rfl

/-- Settles O26: each key's answer, and the keys' codes 0, 1. -/
theorem gateLogicAnswersCatalogByte : Obligations.GateLogicAnswersCatalogByte := by
  refine ⟨catalogAnswers_instr .gateLogicUp, catalogAnswers_instr .gateLogicDown,
    familyDecodes_of_keyOf (f := .gateLogic) fun data => ?_⟩
  rw [Family.keyOf]
  split_ifs <;> rfl

/-- Settles O27: each key's answer, and the keys' codes 95, 99. -/
theorem maxPwmAnswersCatalogByte : Obligations.MaxPwmAnswersCatalogByte := by
  refine ⟨catalogAnswers_instr .maxPwm95, catalogAnswers_instr .maxPwm99,
    familyDecodes_of_keyOf (f := .maxPwm) fun data => ?_⟩
  rw [Family.keyOf]
  split_ifs <;> rfl

/-- Settles O28: each key's answer, and the keys' codes 0, 1. -/
theorem laseOnPowerUpAnswersCatalogByte : Obligations.LaseOnPowerUpAnswersCatalogByte := by
  refine ⟨catalogAnswers_instr .laseOnPowerUpFalse, catalogAnswers_instr .laseOnPowerUpTrue,
    familyDecodes_of_keyOf (f := .laseOnPowerUp) fun data => ?_⟩
  rw [Family.keyOf]
  split_ifs <;> rfl

/-- Settles O29: each key's answer, and the keys' codes 0 to 4. -/
theorem modeAnswersCatalogByte : Obligations.ModeAnswersCatalogByte := by
  refine ⟨catalogAnswers_instr .modeManual, catalogAnswers_instr .modeAnc, catalogAnswers_instr .modeAnv,
    catalogAnswers_instr .modeManClosed, catalogAnswers_instr .modeAnvClosed,
    familyDecodes_of_keyOf (f := .mode) fun data => ?_⟩
  rw [Family.keyOf]
  split_ifs <;> rfl

/-- Settles O30: each key's answer, and the keys' codes 0, 1. -/
theorem laseAnswersCatalogByte : Obligations.LaseAnswersCatalogByte := by
  refine ⟨catalogAnswers_instr .laseFalse, catalogAnswers_instr .laseTrue,
    familyDecodes_of_keyOf (f := .lase) fun data => ?_⟩
  rw [Family.keyOf]
  split_ifs <;> rfl

/-- Settles O31: the third byte is the second with every bit inverted, and the rest is true of any such two bytes. -/
theorem catalogChecksumComplementsCommandByte : Obligations.CatalogChecksumComplementsCommandByte :=
  fun k => ⟨catalogAnswers_instr k, fun s => ⟨_, exec_instr_true k s, (not8_eq_not _).symm, byte_toNat_add_toNat_not _,
    byte_xor_not _, byte_ne_not _, rfl⟩⟩

/-- Settles O32: the answers in closed form, and an illegal code is judged before `cs` is read. -/
theorem catalogChecksumFlagOnlyAppends : Obligations.CatalogChecksumFlagOnlyAppends := by
  refine ⟨fun k s s' hrom => ⟨_, _, _, _, exec_instr_false k s, exec_instr_true k s, exec_instr_false k s',
    exec_instr_true k s', ?_, ?_, rfl, rfl, rfl, rfl, rfl, rfl, rfl⟩, fun f data h => decodeE_illegalCode h⟩
  · rw [hrom]; rfl
  · rw [hrom]; rfl

end Sys2Proof.Machine
end

section
/-! Proofs of the percent family: what PERCENT answers on both sides of data bit 15, and the carry-less sum of the
set-percent byte and the integer part in closed form, from which the checksum's bounds and its independence of the
fraction and of the data byte follow (spec/42_percent_command.md R130 to R139). -/

namespace Sys2Proof.Machine

/-! ### What a percent request answers (R130, R133, R134) -/

theorem getLsbD_15_of_lt {data : BitVec 16} (h : data.toNat < 2 ^ 15) : data.getLsbD 15 = false := by
  rw [← Bool.not_eq_true, getLsbD_15_iff]
  omega

theorem percentDataByte_eq_ofNat (data : BitVec 16) : percentDataByte data = BitVec.ofNat 8 (data.toNat / 128) :=
  BitVec.eq_of_toNat_eq (by rw [percentDataByte_toNat, BitVec.toNat_ofNat])

theorem exec_percent_false {data : BitVec 16} (h : data.toNat < 2 ^ 15) (s : State) :
    exec (.percent false data) s =
      .next (s.respond [Config.startByte, Config.setPercentByte, percentDataByte data]) := by
  rw [exec_percent, percentCommand_in (getLsbD_15_of_lt h)]
  rfl

theorem exec_percent_true {data : BitVec 16} (h : data.toNat < 2 ^ 15) (s : State) :
    exec (.percent true data) s =
      .next (s.respond [Config.startByte, Config.setPercentByte, percentDataByte data,
        not8 (cla10 [127, data.toNat / 256])]) := by
  rw [exec_percent, percentCommand_in (getLsbD_15_of_lt h), not8_percentNcSum, percentIp_toNat]
  rfl

theorem exec_percent_out {data : BitVec 16} (h : 2 ^ 15 ≤ data.toNat) (cs : Bool) (s : State) :
    exec (.percent cs data) s = .next (s.raise .invalidData) := by
  rw [exec_percent, percentCommand_out ((getLsbD_15_iff data).2 h)]
  rfl

theorem decodeE_percentWord_out {data : BitVec 16} (h : 2 ^ 15 ≤ data.toNat) (cs : Bool) :
    decodeE (eWordOf 6 cs data) = .error .invalidData := by
  rw [decodeE_percent (by simp [shapeOf_percent]), wordData_eWordOf, if_pos ((getLsbD_15_iff data).2 h)]

/-! ### The sum with the set-percent byte (R135, R138) -/

/-- The closed form of R135: the hundreds position never overflows below 900. -/
theorem cla10_setPercentByte_eq {v : Nat} (h : v < 900) :
    cla10 [127, v] = 100 * (1 + v / 100) + 10 * ((2 + v / 10 % 10) % 10) + (7 + v % 10) % 10 := by
  have hlen : len10 (cla10 [127, v]) ≤ 3 := len10_le_iff.2 (cla10_pair_lt (by decide) (by omega))
  rw [← placeValue_digit_of_len10_le hlen]
  simp only [placeValue_succ, placeValue_zero, digit_cla10, posSum_cons, posSum_nil]
  simp only [digit_succ]
  omega

/-- The hundreds of the sum are one more than the integer part's, whatever the lower positions drop. -/
theorem cla10_setPercentByte_div_hundred {v : Nat} (h : v < 900) : cla10 [127, v] / 100 = 1 + v / 100 := by
  rw [cla10_setPercentByte_eq h]
  omega

theorem cla10_setPercentByte_le_of_le_127 {ip : Nat} (h : ip ≤ 127) : cla10 [127, ip] ≤ 249 := by
  rw [cla10_setPercentByte_eq (by omega)]
  omega

theorem cla10_setPercentByte_le_of_le_100 {ip : Nat} (h : ip ≤ 100) : cla10 [127, ip] ≤ 227 := by
  rw [cla10_setPercentByte_eq (by omega)]
  omega

/-- On a sum that fits a byte, `not8` needs no modulo (R138). -/
theorem not8_setPercentByte_sum {ip : Nat} (h : ip ≤ 127) :
    not8 (cla10 [127, ip]) = BitVec.ofNat 8 (255 - cla10 [127, ip]) := by
  have := cla10_setPercentByte_le_of_le_127 h
  rw [not8, Nat.mod_eq_of_lt (by omega)]

theorem not8_setPercentByte_sum_toNat {ip : Nat} (h : ip ≤ 127) :
    (not8 (cla10 [127, ip])).toNat = 255 - cla10 [127, ip] := by
  rw [not8_setPercentByte_sum h, BitVec.toNat_ofNat]
  omega

theorem percentNcSum_toNat {data : BitVec 16} (h : data.toNat < 2 ^ 15) :
    (percentNcSum (percentIp data)).toNat = cla10 [127, data.toNat / 256] := by
  have := cla10_setPercentByte_le_of_le_127 (ip := data.toNat / 256) (by omega)
  have hconst : Config.setPercentByte.toNat = 127 := rfl
  rw [percentNcSum, percentIp_toNat, hconst, BitVec.toNat_ofNat]
  omega

/-! ### The checksum is not over the data byte (R139) -/

theorem cla10_left_injective (a : Nat) : Function.Injective fun v => cla10 [a, v] := by
  intro v w h
  refine eq_of_digit_eq fun p => ?_
  have hdigit : digit (cla10 [a, v]) p = digit (cla10 [a, w]) p := congrArg (digit · p) h
  have := digit_lt_ten v p
  have := digit_lt_ten w p
  simp only [digit_cla10, posSum_cons, posSum_nil] at hdigit
  omega

theorem not8_eq_iff {a b : Nat} : not8 a = not8 b ↔ a % 256 = b % 256 := by
  rw [← BitVec.toNat_inj, not8_toNat, not8_toNat]
  omega

/-- Of a byte and its half the checksums agree only at 0. Sums that agree modulo 256 agree: were they 256 apart, the
greater would be at least 356, so the byte at least 200, its half at least 100, and the lesser sum at least 200; but no
sum here reaches 456. -/
theorem not8_setPercentByte_half_eq_iff {b : Nat} (h : b < 256) :
    not8 (cla10 [127, b / 2]) = not8 (cla10 [127, b]) ↔ b = 0 := by
  rw [not8_eq_iff]
  refine ⟨fun hmod => ?_, by rintro rfl; rfl⟩
  have hhalf := cla10_setPercentByte_div_hundred (v := b / 2) (by omega)
  have hbyte := cla10_setPercentByte_div_hundred (v := b) (by omega)
  have hsum : cla10 [127, b / 2] = cla10 [127, b] := by omega
  have := cla10_left_injective 127 hsum
  omega

/-! ### The obligations -/

/-- Settles O33: bit 15 of `data` decides between the answer and InvalidData, in exec and in the decoder alike. -/
theorem percentAnswersDataByteAndAdderChecksum : Obligations.PercentAnswersDataByteAndAdderChecksum := by
  refine fun s data => ⟨fun h => ⟨?_, ?_, fun cs => decodeE_percentWord (getLsbD_15_of_lt h)⟩,
    fun h cs => ⟨exec_percent_out h cs s, decodeE_percentWord_out h cs⟩⟩
  · rw [exec_percent_false h, percentDataByte_eq_ofNat]
    rfl
  · rw [exec_percent_true h, percentDataByte_eq_ofNat, not8_setPercentByte_sum (by omega)]
    rfl

/-- Settles O35: the digits of the integer part are its quotients and remainders in the closed form of the sum. -/
theorem percentChecksumClosedForm : Obligations.PercentChecksumClosedForm := by
  intro s data h t u hdata hh ht hu hip
  refine ⟨_, exec_percent_true hdata s, ?_⟩
  have hsum := cla10_setPercentByte_eq (v := data.toNat / 256) (by omega)
  calc (not8 (cla10 [127, data.toNat / 256])).toNat
      = 255 - cla10 [127, data.toNat / 256] := not8_setPercentByte_sum_toNat (by omega)
    _ = 255 - (100 * (1 + h) + 10 * ((2 + t) % 10) + (7 + u) % 10) := by omega

/-- Settles O36: the hundreds of the sum give its lower bound, and the closed form its upper bounds. -/
theorem percentSumFitsByte : Obligations.PercentSumFitsByte := by
  refine ⟨fun s data hdata => ?_, by decide, by decide⟩
  have hip : data.toNat / 256 ≤ 127 := by omega
  have hmin := cla10_setPercentByte_div_hundred (v := data.toNat / 256) (by omega)
  have hmax := cla10_setPercentByte_le_of_le_127 hip
  have hbyte := not8_setPercentByte_sum_toNat hip
  refine ⟨_, _, _, rfl, rfl, percentNcSum_toNat hdata, exec_percent_true hdata s, hip, by omega, hmax,
    cla10_setPercentByte_le_of_le_100, by omega, hbyte, ?_, ?_⟩
  · change 6 ≤ (not8 _).toNat
    omega
  · change (not8 _).toNat ≤ 155
    omega

/-- Settles O37: the fraction is no part of the adder's operand. -/
theorem percentChecksumIgnoresFraction : Obligations.PercentChecksumIgnoresFraction := by
  intro s data data' h hip
  refine ⟨_, _, exec_percent_true h s, exec_percent_true (by omega) s, ?_⟩
  change not8 _ = not8 _
  rw [hip]

/-- Settles O38: the integer part is half the data byte, and at 0 both checksums are 255 - 127. -/
theorem percentChecksumIsNotOverDataByte : Obligations.PercentChecksumIsNotOverDataByte := by
  refine fun s data hdata => ⟨_, exec_percent_true hdata s, ?_, fun h => ?_⟩
  · change not8 _ = not8 (cla10 [127, (percentDataByte data).toNat]) ↔ _
    have hbyte : (percentDataByte data).toNat = data.toNat / 128 := by rw [percentDataByte_toNat]; omega
    have hhalf : data.toNat / 256 = data.toNat / 128 / 2 := by omega
    rw [hbyte, hhalf, not8_setPercentByte_half_eq_iff (by omega)]
    omega
  · change not8 (cla10 [127, data.toNat / 256]) = 0x80
    rw [Nat.div_eq_of_lt (by omega)]
    decide

end Sys2Proof.Machine
end

section
/-! Proofs of the status request: what STATUS_REQUEST answers, and the range of words that decode to it
(spec/43_status_request.md R150). -/

namespace Sys2Proof.Machine

theorem exec_statusRequest_eq_respond (cs : Bool) (data : BitVec 16) (s : State) :
    exec (.statusRequest cs data) s = .next (s.respond [Config.statusRequestByte]) := by
  rw [exec_statusRequest, statusCommand_eq, State.answer_ok]

/-- The words of command 7 are one interval: the command is the word's top four bits. -/
theorem wordCmd_eq_seven_iff {w : EWord} : wordCmd w = 7 ↔ 0x0E0000 ≤ w.toNat ∧ w.toNat ≤ 0x0FFFFF := by
  have hseven : (7 : BitVec 4).toNat = 7 := rfl
  rw [← BitVec.toNat_inj, wordCmd_toNat, hseven]
  omega

/-- Settles O39: the answer is the one status byte on either checksum path, and the range is that of command 7. -/
theorem statusRequestAnswersOneByte : Obligations.StatusRequestAnswersOneByte := by
  refine ⟨fun s cs data => ?_, fun w hlo hhi => ?_⟩
  · rw [exec_statusRequest_eq_respond]
    rfl
  · have hcmd : wordCmd w = 7 := wordCmd_eq_seven_iff.2 ⟨hlo, hhi⟩
    exact ⟨wordCs w, wordData w, decodeE_status (shapeOf_status.2 hcmd)⟩

end Sys2Proof.Machine
end

section
/-! Proof of the exceptions family: a step goes by the catalog and the host's records alone, and an error changes none of
these but the list of presentations (spec/60_exceptions.md R166, R167). -/

namespace Sys2Proof.Machine

/-! ### What a step leaves of the host's records and the ROM (R33, R41) -/

theorem host_records_of_step {s t : State} (h : step s = .next t) :
    t.txlog = s.txlog ++ txBytes (responseTo s.rom s.nextPresentation) ∧ t.pending = s.pending.tail ∧ t.rom = s.rom := by
  obtain ⟨u, hu, hrecords⟩ := step_host_records s
  have htu : t = u := Host.Outcome.next.inj (h.symm.trans hu)
  rwa [htu]

theorem txBytes_error (e : ErrorKind) : txBytes (some (.error e)) = [] := rfl

/-- A failing request contributes no byte to TXLOG. -/
theorem step_txlog_of_error {s t : State} {e : ErrorKind} (h : step s = .next t)
    (herr : responseTo s.rom s.nextPresentation = some (.error e)) : t.txlog = s.txlog := by
  obtain ⟨hlog, -, -⟩ := host_records_of_step h
  rw [hlog, herr, txBytes_error, List.append_nil]

/-! ### What a step reads (R20, R167) -/

/-- The wires that earlier requests left are not read: the catalog and the host's records decide what a step ends with. -/
theorem step_reads_only_catalog_and_records {s t s' t' : State} (hs : step s = .next s') (ht : step t = .next t')
    (hrom : s.rom = t.rom) (hpending : s.pending = t.pending) (hlog : s.txlog = t.txlog) :
    SameEOutputs s' t' ∧ SameAOutputs s' t' ∧ s'.txlog = t'.txlog ∧ s'.rom = t'.rom ∧ s'.pending = t'.pending := by
  have hnext : s.nextPresentation = t.nextPresentation := congrArg (·.headD Presentation.idle) hpending
  have hErequest : SameERequest s t := ⟨hrom, by rw [hnext], by rw [hnext]⟩
  have hArequest : SameARequest s t := ⟨by rw [hnext], by rw [hnext]⟩
  obtain ⟨hE, hA⟩ := responseDependsOnRequestAlone s t s' t' hs ht
  obtain ⟨hslog, hspending, hsrom⟩ := host_records_of_step hs
  obtain ⟨htlog, htpending, htrom⟩ := host_records_of_step ht
  refine ⟨hE hErequest, hA hArequest, ?_, ?_, ?_⟩
  · rw [hslog, htlog, hlog, hrom, hnext]
  · rw [hsrom, htrom, hrom]
  · rw [hspending, htpending, hpending]

/-- Settles O14: the failing step ends with the catalog and the records of the state in which its presentation is left
out, and these are all the next step reads. -/
theorem errorLeavesNoTrace : Obligations.ErrorLeavesNoTrace := by
  intro s p q ps s1 s2 t2 e hlist herr h1 h2 ht
  obtain ⟨-, hpending, hrom⟩ := host_records_of_step h1
  have hnext : s.nextPresentation = p := by rw [State.nextPresentation, hlist, List.headD_cons]
  have hlog : s1.txlog = s.txlog := step_txlog_of_error h1 (by rw [hnext, herr])
  have hrest : s1.pending = q :: ps := by rw [hpending, hlist, List.tail_cons]
  exact step_reads_only_catalog_and_records h2 ht hrom hrest hlog

end Sys2Proof.Machine
end
